-- ==== Sys2Proof/Word.lean ====
section
/-! DEFINITION. The words of the core: one byte on the data path, the trace word, and the two wire
frames (30_encoding.md R56, R58, R63). -/

namespace Sys2Proof

/-- One byte: the data path is eight bits wide throughout (R110). Bit 0 is the least significant (R8). -/
abbrev Byte := BitVec 8

/-- The 16-bit trace word of R63. -/
abbrev TraceWord := BitVec 16

/-- A device-to-host frame word `F[10:0]`: `F[i]` is the bit sampled at position `i` (R56). -/
abbrev Frame11 := BitVec 11

/-- A host-to-device frame word `T[11:0]`: `T[i]` is the value of bit time `i` (R58). -/
abbrev Frame12 := BitVec 12

end Sys2Proof
end

