-- ==== Sys2Proof/Config.lean ====
section
/-! DEFINITION. The implementation parameters of 00_scope.md R7. The two that the spec leaves OPEN have
no value here: `capacityExcess` and `inhibitRaw` are constants without a body, so that every claim
holds for every value R7 allows. The others stand at the default R7 states (log 9). -/

namespace Sys2Proof.Config

/-- A countdown counter: `CNT_W` bits, default 8 (R7, R23, D17). -/
abbrev Counter := BitVec 8

/-- What `QUEUE_CAPACITY` exceeds 1 by: OPEN (R7, D16, log 7). -/
opaque capacityExcess : Nat

/-- `QUEUE_CAPACITY`, written N: OPEN, an integer with N >= 1 (R7). -/
abbrev queueCapacity : Nat := capacityExcess + 1

/-- `WRITE_TICKS`: default 11, at least 2 (R7, D17). -/
def writeTicks : Counter := 11

/-- `SETTLE_TICKS`: default 4, at least 1 (R7, D17). -/
def settleTicks : Counter := 4

/-- The open choice behind `INHIBIT_TICKS` (R7, D10, log 8). -/
opaque inhibitRaw : Counter

/-- `INHIBIT_TICKS`: OPEN, any value that is at least 1 and fits `CNT_W` bits (R7, D10). -/
def inhibitTicks : Counter := if inhibitRaw = 0 then 1 else inhibitRaw

/-- `STALE_LIMIT`: 100 milliseconds (R7, R76). -/
def staleLimit : Nat := 100

/-- `ERR_BYTE`, sent to the device after an invalid frame: 0xFE (R7, R82). -/
def errByte : Byte := 0xFE

end Sys2Proof.Config
end

