-- ==== Sys2Proof/Syntax.lean ====
section
/-! DEFINITION. The operations of the core as syntax, one constructor per row of spec/opcode_table.json,
and the lines of a trace that request them (30_encoding.md R62 to R64, R68, R69). -/

namespace Sys2Proof

/-- The rows of the operation table. The seven operations of the interface (R62) come first, then the
state-selected sub-operations (R64), then the two frame formats (R56, R58). An operand is what the
operation samples: `d` is `data_in`, `c` is `clk_in`, `a` the acknowledgment level (true is 1, high),
`now` the time in milliseconds, `gap` the time between two edges of a frame (`+s` of R69). -/
inductive Instr where
  /-- RESET, R126. -/
  | reset
  /-- INIT, R120. -/
  | init
  /-- EDGE d @now, R122. -/
  | edge (d : Bool) (now : Nat)
  /-- TICK c, R123 and R100. -/
  | tick (c : Bool)
  /-- SEND b, R124. -/
  | send (b : Byte)
  /-- READ, R125 and R112. -/
  | read
  /-- INHIBIT, R127. -/
  | inhibit
  /-- DEC.IGNORE, R75. -/
  | decIgnore
  /-- DEC.START, R77 after R76. -/
  | decStart (d : Bool) (now : Nat)
  /-- DEC.DATA, R78 after R76. -/
  | decData (d : Bool) (now : Nat)
  /-- DEC.PARITY, R79 after R76. -/
  | decParity (d : Bool) (now : Nat)
  /-- DEC.STOP, R80 with R81 or R82, after R76. -/
  | decStop (d : Bool) (now : Nat)
  /-- ENC.IGNORE, R91. -/
  | encIgnore
  /-- ENC.DATA, R92. -/
  | encData
  /-- ENC.PARITY, R93. -/
  | encParity
  /-- ENC.STOP, R94. -/
  | encStop
  /-- ENC.ACK, R95. -/
  | encAck (d : Bool)
  /-- TICK.INH.HOLD, R101. -/
  | tickInhHold
  /-- TICK.INH.END, R101. -/
  | tickInhEnd
  /-- TICK.WR.HOLD, R102. -/
  | tickWrHold
  /-- TICK.WR.END, R103. -/
  | tickWrEnd
  /-- TICK.ST.HOLD, R104. -/
  | tickStHold (c : Bool)
  /-- TICK.ST.END, R105. -/
  | tickStEnd
  /-- TICK.NOP, R106. -/
  | tickNop
  /-- Q.READ.EMPTY, R112. -/
  | qReadEmpty
  /-- Q.READ.BYTE, R112. -/
  | qReadByte
  /-- Q.PUT.STORE, R111. -/
  | qPutStore (b : Byte)
  /-- Q.PUT.DROP, R111. -/
  | qPutDrop (b : Byte)
  /-- Q.CLEAR, R113. -/
  | qClear
  /-- RXFRAME, R56: the device clocks the frame word `f` in (RXBITS of R69; log 5). -/
  | rxframe (f : Frame11) (now gap : Nat)
  /-- TXFRAME, R58: the frame of the byte `b` goes out and the device answers with the level `a`
  (WRITE of R69; log 6). -/
  | txframe (a : Bool) (b : Byte) (now gap : Nat)
  deriving DecidableEq, Repr

/-- One line of a trace (R68, R69): a trace word with its time stamp (only EDGE reads it, R63), or a
frame word with the time of its first edge and the gap between edges (R69). The length of a frame word
names its direction (R59). -/
inductive TraceLine where
  | word (w : TraceWord) (now : Nat)
  | frame11 (f : Frame11) (now gap : Nat)
  | frame12 (f : Frame12) (now gap : Nat)
  deriving DecidableEq, Repr

end Sys2Proof
end

