-- ==== Sys2Proof/Machine/State.lean ====
section
/-! DEFINITION. The state of the core: every element of 10_state.md R10, and four fields of the model's
own (the two READ outputs of R30, the record of raised conditions, the environment's requests). -/

namespace Sys2Proof.Machine

/-- Which edge handler receives the next EDGE (R11). -/
inductive Handler where
  | dec
  | enc
  deriving DecidableEq, Repr

/-- What the core does to a line: released, or driven low (R27, R28). -/
inductive Drive where
  | rel
  | low
  deriving DecidableEq, Repr

/-- The four error conditions of R135. -/
inductive ErrorCondition where
  | frameError
  | desync
  | noAck
  | queueOverflow
  deriving DecidableEq, Repr

/-- The slot array as a list of slot index and byte, indices strictly rising; a slot that no put has
written since RESET is not listed (R25, U3; log 10). -/
abbrev Memory := List Host.Cell

/-- The Byte Queue with `n` slots (R24, R25). `none` is the cursor value `NONE`. -/
structure Queue (n : Nat) where
  /-- The slot of the oldest byte (R24). -/
  q_head : Option (Fin n)
  /-- The slot the next byte goes to (R24). -/
  q_tail : Option (Fin n)
  /-- The slots (R25). -/
  q_slot : Memory
  deriving DecidableEq, Repr

/-- The complete state (R10). One-bit flags are Booleans, true being 1. -/
structure State where
  /-- The armed edge handler (R11). -/
  armed : Handler
  /-- The Decoder's bit position, 0 to 10 (R12, U1). -/
  rx_pos : Fin 11
  /-- The Decoder's byte in progress (R13). -/
  rx_byte : Byte
  /-- The Decoder's running parity (R14). -/
  rx_par : Bool
  /-- The Decoder's validity flag, stored inverted (R15). -/
  rx_bad : Bool
  /-- The time of the last edge the Decoder processed (R16). -/
  rx_last : Nat
  /-- The Encoder's bit position, 0 to 10 (R17, U1). -/
  tx_pos : Fin 11
  /-- The Pending Write Byte (R18). -/
  pend : Byte
  /-- The Encoder's running parity (R19). -/
  tx_par : Bool
  /-- The sampled acknowledgment level (R22). -/
  ack_lvl : Bool
  /-- The inhibit countdown counter (R23). -/
  inh_cnt : Config.Counter
  /-- The write-request countdown counter (R23). -/
  wr_cnt : Config.Counter
  /-- The settle countdown counter (R23). -/
  st_cnt : Config.Counter
  /-- The Byte Queue: cursors and slots (R24, R25). -/
  queue : Queue Config.queueCapacity
  /-- What the core does to the data line (R27). -/
  data_drv : Drive
  /-- What the core does to the clock line (R28). -/
  clk_drv : Drive
  /-- One-time timer configuration done (R29). -/
  timer_cfg : Bool
  /-- MODEL's own: the output `read_ok` of R30, as the latest READ left it (log 2). -/
  read_ok : Bool
  /-- MODEL's own: the output `read_byte` of R30, no value when `read_ok` is 0 (U6, log 2). -/
  read_byte : Option Byte
  /-- MODEL's own: the conditions raised since RESET, oldest first (R135, log 3). -/
  raised : List ErrorCondition
  /-- MODEL's own: the operations the environment will request, the next one first (R30, R153, log 1). -/
  trace : List TraceLine
  deriving DecidableEq, Repr

/-- What stops the machine with a fault. The spec's core has none (R140): both are raised only in states
that no operation reaches. -/
inductive Fault where
  /-- Raised by READ when the slot at `q_head` has never been written: safe, "no rule ever reads such a
  slot" (R25, U3, log 10). -/
  | slotUnwritten (slot : Nat)
  /-- Raised by put, and by a DRAIN that would never end, when `q_tail` is `NONE` and `q_head` is not:
  safe, "The value NONE of a cursor is not an address" (R41) and no rule leaves such cursors (R24, log
  11). -/
  | tailUnset
  deriving DecidableEq, Repr

/-- What the machine refuses. -/
inductive Refusal where
  /-- Raised by exec for an operation that has no meaning yet: safe. No arm raises it. -/
  | notModelled (mnemonic : String)
  /-- Raised by a sub-operation in a state that does not select it (R64, log 4): safe, the spec gives the
  case no effect there. -/
  | notSelected (mnemonic : String)
  /-- Raised by step for a trace word with a reserved operation code (R66, U7, log 14): safe. -/
  | reservedWord (w : TraceWord)
  /-- Raised by step for a host-to-device frame word the core never emits (R65, log 6): safe. -/
  | unsendableFrame (f : Frame12)
  deriving DecidableEq, Repr

/-- The outcome of an operation. -/
abbrev Result := Host.Outcome State Fault Refusal

/-- The state after RESET: the column "After RESET" of R32. The slots are unspecified: none is listed
(log 10). The model's own fields are empty (logs 1, 2, 3). -/
def State.reset : State where
  armed := .dec
  rx_pos := 0
  rx_byte := 0#8
  rx_par := false
  rx_bad := false
  rx_last := 0
  tx_pos := 0
  pend := 0#8
  tx_par := false
  ack_lvl := false
  inh_cnt := 0#8
  wr_cnt := 0#8
  st_cnt := 0#8
  queue := { q_head := none, q_tail := none, q_slot := [] }
  data_drv := .rel
  clk_drv := .rel
  timer_cfg := false
  read_ok := false
  read_byte := none
  raised := []
  trace := []

end Sys2Proof.Machine
end

