-- ==== Sys2Proof/Machine/Flags.lean ====
section
/-! DEFINITION. The one-bit flags: the running parities `rx_par` and `tx_par`, and the validity flag
`rx_bad` (10_state.md R14, R15, R19). Levels are Booleans, true being 1. -/

namespace Sys2Proof.Machine

/-- A running parity after one bit: complemented by a 1, left by a 0 (R14, R19, R78, R79, R92). -/
def parityAfter (par bit : Bool) : Bool := if bit then !par else par

/-- `rx_bad` after the start bit: 1 if the start bit is 1, else 0 (R77). -/
def badAfterStart (d : Bool) : Bool := d

/-- `rx_bad` after the parity bit, from the parity that includes it: set when the parity is even,
otherwise left (R79). -/
def badAfterParity (par bad : Bool) : Bool := if par = false then true else bad

/-- `rx_bad` after the stop bit: set when the stop bit is 0, otherwise left (R80). -/
def badAfterStop (d bad : Bool) : Bool := if d = false then true else bad

end Sys2Proof.Machine
end

