-- ==== Sys2Proof/WellFormed.lean ====
section
/-! DEFINITION. What a trace may hold: which operations have a line of their own, and which trace words
are canonical (30_encoding.md R62, R63, R64, R66). -/

namespace Sys2Proof

/-- Is this operation requested by a line of its own? The seven operations of the interface are (R62),
and the two frames are (R69). A sub-operation is not: it has no word of its own, the state selects it
(R64), and put and clear are no operations of the interface (R62, R111, R113). -/
def Instr.wellFormed : Instr → Bool
  | .reset => true
  | .init => true
  | .edge _ _ => true
  | .tick _ => true
  | .send _ => true
  | .read => true
  | .inhibit => true
  | .decIgnore => false
  | .decStart _ _ => false
  | .decData _ _ => false
  | .decParity _ _ => false
  | .decStop _ _ => false
  | .encIgnore => false
  | .encData => false
  | .encParity => false
  | .encStop => false
  | .encAck _ => false
  | .tickInhHold => false
  | .tickInhEnd => false
  | .tickWrHold => false
  | .tickWrEnd => false
  | .tickStHold _ => false
  | .tickStEnd => false
  | .tickNop => false
  | .qReadEmpty => false
  | .qReadByte => false
  | .qPutStore _ => false
  | .qPutDrop _ => false
  | .qClear => false
  | .rxframe _ _ _ => true
  | .txframe _ _ _ _ => true

/-- Which bits of a trace word the operation with this code uses besides the code: `d` for EDGE, `c`
for TICK, `imm8` for SEND, none for the others (R63). -/
def usedBits (op : Nat) : TraceWord :=
  if op = 2 then 0x0100 else if op = 3 then 0x0200 else if op = 4 then 0x00FF else 0x0000

/-- Canonical: the code is one of the seven, 0x0 to 0x6 (for 0x7 to 0xF the canonical words are "none"),
"A field that the operation does not use is 0 in the canonical word", the reserved bits are 0, and only
EDGE carries a time (R63). A frame word has no field that is not used (R56, R58). -/
def TraceLine.canonical : TraceLine → Bool
  | .word w now =>
    let op := (w.extractLsb' 12 4).toNat
    decide (op ≤ 6) && decide (w &&& 0x0FFF &&& ~~~(usedBits op) = 0) && (decide (op = 2) || decide (now = 0))
  | .frame11 _ _ _ => true
  | .frame12 _ _ _ => true

end Sys2Proof
end

