-- ==== Sys2Proof/Decode.lean ====
section
/-! DEFINITION. The encodings of 30_encoding.md: the frame words of R56 and R58, the decoder of trace
lines (R63, R66, total, rejecting by name) and, after it, the encoder. -/

namespace Sys2Proof

/-! ### Frame words -/

/-- `oddpar(b)` of R56: 1 when the byte has an even number of ones. -/
def oddpar (b : Byte) : Bool :=
  !(b.getLsbD 0 ^^ b.getLsbD 1 ^^ b.getLsbD 2 ^^ b.getLsbD 3 ^^
    b.getLsbD 4 ^^ b.getLsbD 5 ^^ b.getLsbD 6 ^^ b.getLsbD 7)

/-- A one-bit value as a word of `n` bits. -/
def bitWord (n : Nat) (x : Bool) : BitVec n := if x then 1#n else 0#n

/-- `rxframe(b)` of R56 and `txframe(b)` of R58, the same eleven bits:
`(1 << 10) | (oddpar(b) << 9) | (b << 1)`. -/
def frameOf (b : Byte) : Frame11 :=
  (1#11 <<< 10) ||| (bitWord 11 (oddpar b) <<< 9) ||| (b.setWidth 11 <<< 1)

/-- `F[8:1]`, the byte a frame word carries (R56). -/
def frameByte (f : Frame11) : Byte := f.extractLsb' 1 8

/-- `T[11:0]` of R58: the device's acknowledgment level above the eleven bits the host emits. -/
def txWord (a : Bool) (b : Byte) : Frame12 :=
  (bitWord 12 a <<< 11) ||| (frameOf b).setWidth 12

/-! ### Decoding -/

/-- Why a line names no operation. -/
inductive DecodeError where
  /-- A trace word with a reserved operation code, 0x7 to 0xF (R66, U7). -/
  | reservedWord (w : TraceWord)
  /-- A host-to-device frame word that the core can never emit: wrong start, parity or stop (R65). -/
  | unsendableFrame (f : Frame12)
  deriving DecidableEq, Repr

/-- The trace word of R63: `op` is `w[15:12]`, `c` is `w[9]`, `d` is `w[8]`, `imm8` is `w[7:0]`;
`w[11:10]` and the fields an operation does not use are ignored (R66, U10). -/
def decodeWord (w : TraceWord) (now : Nat) : Except DecodeError Instr :=
  match (w.extractLsb' 12 4).toNat with
  | 0 => .ok .reset
  | 1 => .ok .init
  | 2 => .ok (.edge (w.getLsbD 8) now)
  | 3 => .ok (.tick (w.getLsbD 9))
  | 4 => .ok (.send (w.extractLsb' 0 8))
  | 5 => .ok .read
  | 6 => .ok .inhibit
  | _ => .error (.reservedWord w)

/-- A line of a trace. Every device-to-host frame word is accepted: "No frame word is reserved" (R65).
A host-to-device frame word must be one of the `txframe(b)` with an acknowledgment bit: "it never emits
a frame with wrong parity, wrong start or wrong stop" (R65). -/
def decode : TraceLine → Except DecodeError Instr
  | .word w now => decodeWord w now
  | .frame11 f now gap => .ok (.rxframe f now gap)
  | .frame12 f now gap =>
    if f.extractLsb' 0 11 = frameOf (f.extractLsb' 1 8) then
      .ok (.txframe (f.getLsbD 11) (f.extractLsb' 1 8) now gap)
    else .error (.unsendableFrame f)

/-! ### Encoding -/

/-- The canonical word of an operation code with its used fields (R63). -/
def opWord (op : BitVec 4) (fields : BitVec 12) : TraceWord := op ++ fields

/-- The line that requests an operation: the canonical words of R63, the frame words of R56 and R58. A
sub-operation has none (R64). -/
def encode : Instr → Option TraceLine
  | .reset => some (.word 0x0000 0)
  | .init => some (.word 0x1000 0)
  | .edge d now => some (.word (opWord 2 (bitWord 12 d <<< 8)) now)
  | .tick c => some (.word (opWord 3 (bitWord 12 c <<< 9)) 0)
  | .send b => some (.word (opWord 4 (b.setWidth 12)) 0)
  | .read => some (.word 0x5000 0)
  | .inhibit => some (.word 0x6000 0)
  | .decIgnore => none
  | .decStart _ _ => none
  | .decData _ _ => none
  | .decParity _ _ => none
  | .decStop _ _ => none
  | .encIgnore => none
  | .encData => none
  | .encParity => none
  | .encStop => none
  | .encAck _ => none
  | .tickInhHold => none
  | .tickInhEnd => none
  | .tickWrHold => none
  | .tickWrEnd => none
  | .tickStHold _ => none
  | .tickStEnd => none
  | .tickNop => none
  | .qReadEmpty => none
  | .qReadByte => none
  | .qPutStore _ => none
  | .qPutDrop _ => none
  | .qClear => none
  | .rxframe f now gap => some (.frame11 f now gap)
  | .txframe a b now gap => some (.frame12 (txWord a b) now gap)

/-! ### The table's numbering -/

/-- The line for a word of the operation table: `FRAME11` and `FRAME12` rows are eleven and twelve bits
long, every other length is a trace word (opcode_table.json; log 15). A table word carries no time, so
the time is 0, and the gap is the `+1` that R69 lets a listing omit. -/
def tableLine (nbits w : Nat) : TraceLine :=
  if nbits = 11 then .frame11 (BitVec.ofNat 11 w) 0 1
  else if nbits = 12 then .frame12 (BitVec.ofNat 12 w) 0 1
  else .word (BitVec.ofNat 16 w) 0

/-- What the decoder reads from a word of the operation table. -/
def decodeTableWord (nbits w : Nat) : Option Instr :=
  match decode (tableLine nbits w) with
  | .ok i => some i
  | .error _ => none

end Sys2Proof
end

