-- ==== Sys2Proof/Machine/Operands.lean ====
section
/-! DEFINITION. How operands are assembled and taken apart: position counters, frame bits, the Decoder's
byte, the Encoder's byte, levels and drives (30_encoding.md R55 to R60, 44_host_ops.md R129). -/

namespace Sys2Proof.Machine

/-- The position after `p`: "applied only to values 0 to 9, result 1 to 10; after 10 the counter is set
to 0" (R129). The data positions of both directions use it (R78, R92). -/
def nextPos (p : Fin 11) : Fin 11 := if h : p.val < 10 then ⟨p.val + 1, by omega⟩ else 0

/-- `rx_byte` after the data bit `d` at position `k` (1 to 8): a 1 is ORed in as bit `k-1` (R60, R78). -/
def orDataBit (k : Fin 11) (d : Bool) (byte : Byte) : Byte :=
  if d then byte ||| (1#8 <<< (k.val - 1)) else byte

/-- The bit the Encoder emits: bit 0 of the pending byte (R60, R92). -/
def emittedBit (pend : Byte) : Bool := pend.getLsbD 0

/-- The pending byte after the emission: a logical shift right by one (R60, R92, R129). -/
def shiftPend (pend : Byte) : Byte := pend >>> 1

/-- The drive that puts a bit value on a line: "drive low for 0, release/high for 1" (R57). -/
def driveOf (bit : Bool) : Drive := if bit then .rel else .low

/-- The level a line shows when the device does not drive it: 0 if the core drives it low, else 1 (R31,
R68, R69). -/
def levelOf (drv : Drive) : Bool := decide (drv = .rel)

/-- The exclusive OR of `F[1]` to `F[9]` (R56). -/
def frameParity (f : Frame11) : Bool :=
  f.getLsbD 1 ^^ f.getLsbD 2 ^^ f.getLsbD 3 ^^ f.getLsbD 4 ^^ f.getLsbD 5 ^^
    f.getLsbD 6 ^^ f.getLsbD 7 ^^ f.getLsbD 8 ^^ f.getLsbD 9

/-- A frame word is valid: start 0, stop 1, odd parity over positions 1 to 9 (R56). -/
def validFrame (f : Frame11) : Bool := !f.getLsbD 0 && f.getLsbD 10 && frameParity f

/-- The eleven edges of RXBITS: the i-th is `EDGE F[i] @(now + i*gap)` (R69). -/
def frameEdges (f : Frame11) (now gap : Nat) : List (Bool × Nat) :=
  (List.range 11).map fun i => (f.getLsbD i, now + i * gap)

end Sys2Proof.Machine
end

