-- ==== Sys2Proof/Machine/Ops.lean ====
section
/-! DEFINITION. The named operations the meanings share: outcomes in sequence, the slot array, the line
primitives (60_exceptions.md R152), `raise` (R135), the request to transmit (R124), the entry into error
handling and its end (R147, R148). -/

namespace Sys2Proof.Machine

/-! ### Outcomes -/

/-- First `r`, then `k` on the state it leaves; a stop ends the sequence. -/
def andThen (r : Result) (k : State → Result) : Result :=
  match r with
  | .next s => k s
  | .fault f => .fault f
  | .refused f => .refused f

/-- A sub-operation happens only in a state that selects it (R64, log 4). -/
def selected (sel : Bool) (mnemonic : String) (r : Result) : Result :=
  if sel then r else .refused (.notSelected mnemonic)

/-! ### The slot array -/

/-- `MemRead(i, 1)`: the byte of slot `i`, none if no put has written it (R8, R25). -/
def Memory.read : Memory → Nat → Option Byte
  | [], _ => none
  | (k, v) :: rest, a => if k = a then some v else Memory.read rest a

/-- `MemWrite(i, 1, v)` (R8), keeping the indices strictly rising. -/
def Memory.write : Memory → Nat → Byte → Memory
  | [], a, b => [(a, b)]
  | (k, v) :: rest, a, b =>
    if a < k then (a, b) :: (k, v) :: rest
    else if a = k then (a, b) :: rest
    else (k, v) :: Memory.write rest a b

/-- The canonical form: indices strictly rising, so each at most once. -/
abbrev Memory.wf (m : Memory) : Prop := List.Pairwise (fun x y => x.1 < y.1) m

/-! ### Line primitives -/

/-- "release-data-high" (R152). -/
def releaseData (s : State) : State := { s with data_drv := .rel }

/-- "drive-data-low" (R152). -/
def driveDataLow (s : State) : State := { s with data_drv := .low }

/-- "release-clock-high" (R152). -/
def releaseClock (s : State) : State := { s with clk_drv := .rel }

/-- "drive-clock-low" (R152). -/
def driveClockLow (s : State) : State := { s with clk_drv := .low }

/-! ### Counters -/

/-- No countdown phase is running (R75, R106, R127). -/
def countersZero (s : State) : Bool :=
  decide (s.inh_cnt = 0#8 ∧ s.wr_cnt = 0#8 ∧ s.st_cnt = 0#8)

/-! ### Error conditions, requests, error handling -/

/-- `raise <Cause>`: it marks the point and transfers no control (R8, R135); the model records it. -/
def raiseCond (c : ErrorCondition) (s : State) : State := { s with raised := s.raised ++ [c] }

/-- The request to transmit a byte: what SEND does, and the Decoder's error path "with exactly the effect
of a SEND" (R82, R124). -/
def requestSend (b : Byte) (s : State) : State := { s with pend := b, wr_cnt := Config.writeTicks }

/-- The entry into the handling of `FrameError`, one atomic step of DEC.STOP (R82, R147): the error byte
is requested and the position returns to 0. Nothing is saved (R147). -/
def takeFrameError (s : State) : State :=
  { requestSend Config.errByte (raiseCond .frameError s) with rx_pos := 0 }

/-- The end of a write sequence, and with it of the handling of a `FrameError` (R105, R148): there is no
return instruction, nothing is restored. -/
def endSettle (s : State) : State :=
  { releaseClock s with armed := .dec, st_cnt := s.st_cnt - 1#8 }

end Sys2Proof.Machine
end

