-- ==== Sys2Proof/Machine/Queue.lean ====
section
/-! DEFINITION. The Byte Queue: its cursors and slots for any capacity, and the five queue sub-operations
Q.PUT.STORE, Q.PUT.DROP, Q.READ.EMPTY, Q.READ.BYTE and Q.CLEAR (43_queue.md R110 to R114). -/

namespace Sys2Proof.Machine

/-! ### Derived quantities (R26) -/

/-- `(i + 1) mod N` (R129). -/
def nextSlot {n : Nat} (i : Fin n) : Fin n :=
  ⟨(i.val + 1) % n, Nat.mod_lt _ (Nat.lt_of_le_of_lt (Nat.zero_le _) i.isLt)⟩

/-- `empty` (R26). -/
def Queue.isEmpty {n : Nat} (q : Queue n) : Bool := decide (q.q_head = none)

/-- `full`: the cursors are equal and not `NONE` (R26). -/
def Queue.isFull {n : Nat} (q : Queue n) : Bool := decide (q.q_head ≠ none ∧ q.q_head = q.q_tail)

/-- `count` (R26). -/
def Queue.count {n : Nat} (q : Queue n) : Nat :=
  match q.q_head, q.q_tail with
  | some h, some t => if h = t then n else (t.val + n - h.val) % n
  | _, _ => 0

/-- The slots in use, the oldest first: `(q_head + i) mod N` for `i` below `count` (R26). -/
def Queue.occupied {n : Nat} (q : Queue n) : List Nat :=
  match q.q_head with
  | none => []
  | some h => (List.range q.count).map fun i => (h.val + i) % n

/-- `contents`, the oldest byte first (R26). -/
def Queue.contents {n : Nat} (q : Queue n) : List Byte := q.occupied.filterMap q.q_slot.read

/-- What every reachable queue satisfies (R25, R33 items 1 and 4): both cursors are `NONE` or neither is,
the slot array is in canonical form with indices below N, and every slot in use has been written. -/
def Queue.wf {n : Nat} (q : Queue n) : Prop :=
  (q.q_head = none ↔ q.q_tail = none) ∧ q.q_slot.wf ∧ (∀ c ∈ q.q_slot, c.1 < n) ∧
    ∀ a ∈ q.occupied, (q.q_slot.read a).isSome

/-! ### The three changes of a queue -/

/-- The slot a put on a queue that is not full stores to: `q_tail`, or slot 0 when the queue is empty
(R110, R111, D15). -/
def Queue.storeSlot {m : Nat} (q : Queue (m + 1)) : Option (Fin (m + 1)) :=
  match q.q_head with
  | none => some 0
  | some _ => q.q_tail

/-- Q.PUT.STORE: the byte goes to its slot and `q_tail` moves on; the first insert sets both cursors
(R111). No result when `q_tail` names no slot (log 11). -/
def Queue.store {m : Nat} (b : Byte) (q : Queue (m + 1)) : Option (Queue (m + 1)) :=
  match q.storeSlot with
  | none => none
  | some t =>
    some
      { q_head := some (q.q_head.getD 0)
        q_tail := some (nextSlot t)
        q_slot := q.q_slot.write t.val b }

/-- Q.READ.BYTE on the cursors: `q_head` moves on, and both become `NONE` when it meets `q_tail` (R112). -/
def Queue.advance {n : Nat} (h : Fin n) (q : Queue n) : Queue n :=
  if some (nextSlot h) = q.q_tail then { q with q_head := none, q_tail := none }
  else { q with q_head := some (nextSlot h) }

/-- Q.CLEAR: both cursors become `NONE`, the slots stay (R113). -/
def Queue.clear {n : Nat} (q : Queue n) : Queue n := { q with q_head := none, q_tail := none }

/-! ### Put and read on the state -/

/-- Q.PUT.STORE on the state (R111). -/
def putStore (b : Byte) (s : State) : Result :=
  match s.queue.store b with
  | some q => .next { s with queue := q }
  | none => .fault .tailUnset

/-- Q.PUT.DROP on the state: the byte is lost, nothing else changes (R111, R139). -/
def putDrop (s : State) : State := raiseCond .queueOverflow s

/-- `Q_PUT(b)` (R111). -/
def qPut (b : Byte) (s : State) : Result :=
  if s.queue.isFull then .next (putDrop s) else putStore b s

/-- Q.READ.EMPTY on the state: `read_ok <- 0`, and no byte is produced (R112, U6). -/
def readEmpty (s : State) : State := { s with read_ok := false, read_byte := none }

/-- Q.READ.BYTE on the state, `h` being `q_head` (R112). -/
def readByte (h : Fin Config.queueCapacity) (s : State) : Result :=
  match s.queue.q_slot.read h.val with
  | some b => .next { s with read_ok := true, read_byte := some b, queue := s.queue.advance h }
  | none => .fault (.slotUnwritten h.val)

/-- Q.READ (R112). -/
def qRead (s : State) : Result :=
  match s.queue.q_head with
  | none => .next (readEmpty s)
  | some h => readByte h s

/-! ### The sub-operations -/

/-- Q.READ.EMPTY, R112: selected by `q_head = NONE` (R64). -/
def execQReadEmpty (s : State) : Result :=
  selected s.queue.isEmpty "Q.READ.EMPTY" (.next (readEmpty s))

/-- Q.READ.BYTE, R112: selected by `q_head != NONE` (R64). -/
def execQReadByte (s : State) : Result :=
  match s.queue.q_head with
  | none => .refused (.notSelected "Q.READ.BYTE")
  | some h => readByte h s

/-- Q.PUT.STORE, R111: selected when the queue is not full (R64). -/
def execQPutStore (b : Byte) (s : State) : Result :=
  selected (!s.queue.isFull) "Q.PUT.STORE" (putStore b s)

/-- Q.PUT.DROP, R111: selected when the queue is full (R64). The byte is dropped. -/
def execQPutDrop (_b : Byte) (s : State) : Result :=
  selected s.queue.isFull "Q.PUT.DROP" (.next (putDrop s))

/-- Q.CLEAR, R113. -/
def execQClear (s : State) : Result := .next { s with queue := s.queue.clear }

end Sys2Proof.Machine
end

