-- ==== Sys2Proof/Machine/Decoder.lean ====
section
/-! DEFINITION. The Bit-Frame Decoder: the guard, the staleness guard, the actions of the eleven
positions, and the five sub-operations of an EDGE while the Decoder is armed (40_decoder.md R75 to R83). -/

namespace Sys2Proof.Machine

/-! ### The staleness guard (R76) -/

/-- More than `STALE_LIMIT` has passed since the Decoder's last edge; false when time went backwards
(R76). -/
def isStale (now : Nat) (s : State) : Bool :=
  decide (s.rx_last ≤ now ∧ Config.staleLimit < now - s.rx_last)

/-- The position this edge is processed at: 0 if the staleness guard fires (R64, R76). -/
def guardedPos (now : Nat) (s : State) : Fin 11 := if isStale now s then 0 else s.rx_pos

/-- The staleness guard: `raise Desync` and `rx_pos <- 0` if it fires, and always `rx_last <- now` (R76,
R137). -/
def stalenessGuard (now : Nat) (s : State) : State :=
  if isStale now s then { raiseCond .desync s with rx_pos := 0, rx_last := now }
  else { s with rx_last := now }

/-! ### The positions -/

/-- Position 0, the start bit (R77). -/
def startBit (d : Bool) (s : State) : State :=
  { s with rx_byte := 0#8, rx_par := false, rx_bad := badAfterStart d, rx_pos := 1 }

/-- Positions 1 to 8, a data bit (R78). -/
def dataBit (d : Bool) (s : State) : State :=
  { s with
    rx_byte := orDataBit s.rx_pos d s.rx_byte
    rx_par := parityAfter s.rx_par d
    rx_pos := nextPos s.rx_pos }

/-- Position 9, the parity bit (R79). -/
def parityBit (d : Bool) (s : State) : State :=
  { s with
    rx_par := parityAfter s.rx_par d
    rx_bad := badAfterParity (parityAfter s.rx_par d) s.rx_bad
    rx_pos := 10 }

/-- The end of a valid frame: put, then `rx_pos <- 0` (R80, R81). -/
def endValid (s : State) : Result :=
  andThen (qPut s.rx_byte s) fun t => .next { t with rx_pos := 0 }

/-- Position 10, the stop bit and the end of the frame: R81 if the frame is valid, R82 if not (R80). -/
def stopBit (d : Bool) (s : State) : Result :=
  let s' := { s with rx_bad := badAfterStop d s.rx_bad }
  if s'.rx_bad then .next (takeFrameError s') else endValid s'

/-- The action of the current position (40_decoder.md section 1, step 3). -/
def positionAction (d : Bool) (s : State) : Result :=
  if s.rx_pos.val = 0 then .next (startBit d s)
  else if s.rx_pos.val ≤ 8 then .next (dataBit d s)
  else if s.rx_pos.val = 9 then .next (parityBit d s)
  else stopBit d s

/-- One Decoder invocation: the guard of R75, the staleness guard, the position's action. -/
def decEdge (d : Bool) (now : Nat) (s : State) : Result :=
  if countersZero s then positionAction d (stalenessGuard now s) else .next s

/-! ### The sub-operations -/

/-- The Decoder is armed and its guard lets the edge through (R64, R75). -/
def decOpen (s : State) : Bool := decide (s.armed = .dec) && countersZero s

/-- DEC.IGNORE, R75: no element of the state changes. -/
def execDecIgnore (s : State) : Result :=
  selected (decide (s.armed = .dec) && !countersZero s) "DEC.IGNORE" (.next s)

/-- DEC.START, R77, after the staleness guard. -/
def execDecStart (d : Bool) (now : Nat) (s : State) : Result :=
  selected (decOpen s && decide ((guardedPos now s).val = 0)) "DEC.START"
    (.next (startBit d (stalenessGuard now s)))

/-- DEC.DATA, R78, after the staleness guard. -/
def execDecData (d : Bool) (now : Nat) (s : State) : Result :=
  selected (decOpen s && decide (1 ≤ (guardedPos now s).val ∧ (guardedPos now s).val ≤ 8)) "DEC.DATA"
    (.next (dataBit d (stalenessGuard now s)))

/-- DEC.PARITY, R79, after the staleness guard. -/
def execDecParity (d : Bool) (now : Nat) (s : State) : Result :=
  selected (decOpen s && decide ((guardedPos now s).val = 9)) "DEC.PARITY"
    (.next (parityBit d (stalenessGuard now s)))

/-- DEC.STOP, R80 to R82, after the staleness guard. -/
def execDecStop (d : Bool) (now : Nat) (s : State) : Result :=
  selected (decOpen s && decide ((guardedPos now s).val = 10)) "DEC.STOP"
    (stopBit d (stalenessGuard now s))

end Sys2Proof.Machine
end

