-- ==== Sys2Proof/Machine/Encoder.lean ====
section
/-! DEFINITION. The Bit-Frame Encoder: the settle guard, the actions of the eleven positions, and the
five sub-operations of an EDGE while the Encoder is armed (41_encoder.md R90 to R96). -/

namespace Sys2Proof.Machine

/-! ### The positions -/

/-- Positions 0 to 7, a data bit: the low bit of `pend` goes on the data line, `pend` shifts, the parity
counts the ones, starting from 0 at position 0 (R92). -/
def emitData (s : State) : State :=
  { s with
    data_drv := driveOf (emittedBit s.pend)
    tx_par := parityAfter (if s.tx_pos.val = 0 then false else s.tx_par) (emittedBit s.pend)
    pend := shiftPend s.pend
    tx_pos := nextPos s.tx_pos }

/-- Position 8, the parity bit: the complement of the running parity, which stays as it is (R93). -/
def emitParity (s : State) : State :=
  { s with data_drv := driveOf (!s.tx_par), tx_pos := 9 }

/-- Position 9, the stop bit: the data line is released (R94). -/
def emitStop (s : State) : State := { releaseData s with tx_pos := 10 }

/-- Position 10: the acknowledgment is sampled, the settle phase begins, the clock is forced low; a level
of 1 raises `NoAck` (R95, R138). -/
def sampleAck (d : Bool) (s : State) : State :=
  let s' := if d then raiseCond .noAck s else s
  { driveClockLow s' with ack_lvl := d, st_cnt := Config.settleTicks, tx_pos := 0 }

/-- The action of the current position (41_encoder.md section 1, step 2). -/
def encAction (d : Bool) (s : State) : State :=
  if s.tx_pos.val ≤ 7 then emitData s
  else if s.tx_pos.val = 8 then emitParity s
  else if s.tx_pos.val = 9 then emitStop s
  else sampleAck d s

/-- One Encoder invocation: the guard of R91, then the position's action. -/
def encEdge (d : Bool) (s : State) : State := if s.st_cnt ≠ 0#8 then s else encAction d s

/-! ### The sub-operations -/

/-- The Encoder is armed and its guard lets the edge through (R64, R91). -/
def encOpen (s : State) : Bool := decide (s.armed = .enc ∧ s.st_cnt = 0#8)

/-- ENC.IGNORE, R91: no element of the state changes. -/
def execEncIgnore (s : State) : Result :=
  selected (decide (s.armed = .enc ∧ s.st_cnt ≠ 0#8)) "ENC.IGNORE" (.next s)

/-- ENC.DATA, R92. -/
def execEncData (s : State) : Result :=
  selected (encOpen s && decide (s.tx_pos.val ≤ 7)) "ENC.DATA" (.next (emitData s))

/-- ENC.PARITY, R93. -/
def execEncParity (s : State) : Result :=
  selected (encOpen s && decide (s.tx_pos.val = 8)) "ENC.PARITY" (.next (emitParity s))

/-- ENC.STOP, R94. -/
def execEncStop (s : State) : Result :=
  selected (encOpen s && decide (s.tx_pos.val = 9)) "ENC.STOP" (.next (emitStop s))

/-- ENC.ACK, R95. -/
def execEncAck (d : Bool) (s : State) : Result :=
  selected (encOpen s && decide (s.tx_pos.val = 10)) "ENC.ACK" (.next (sampleAck d s))

end Sys2Proof.Machine
end

