-- ==== Sys2Proof/Machine/Sequencer.lean ====
section
/-! DEFINITION. The Timing Sequencer: the three counter blocks of one TICK, and the seven sub-operations
of TICK (42_sequencer.md R100 to R107). -/

namespace Sys2Proof.Machine

/-! ### The actions of the blocks, each with its decrement (R100) -/

/-- Inhibit phase, hold: the clock is forced low (R101). -/
def inhHold (s : State) : State := { driveClockLow s with inh_cnt := s.inh_cnt - 1#8 }

/-- Inhibit phase, end: the clock is released (R101). -/
def inhEnd (s : State) : State := { releaseClock s with inh_cnt := s.inh_cnt - 1#8 }

/-- Write-request phase, hold: the clock is forced low (R102). -/
def wrHold (s : State) : State := { driveClockLow s with wr_cnt := s.wr_cnt - 1#8 }

/-- Write-request phase, end: the start bit, both positions to 0, the Encoder armed, the clock released
(R103). -/
def wrEnd (s : State) : State :=
  { releaseClock { driveDataLow s with rx_pos := 0, tx_pos := 0, armed := .enc } with
    wr_cnt := s.wr_cnt - 1#8 }

/-- Settle phase, hold: the clock is forced low if it was observed high (R104). -/
def stHold (c : Bool) (s : State) : State :=
  { (if c then driveClockLow s else s) with st_cnt := s.st_cnt - 1#8 }

/-! ### The three blocks and the TICK (R100) -/

/-- The inhibit block. -/
def inhBlock (s : State) : State :=
  if s.inh_cnt = 0#8 then s else if 1#8 < s.inh_cnt then inhHold s else inhEnd s

/-- The write block. -/
def wrBlock (s : State) : State :=
  if s.wr_cnt = 0#8 then s else if 1#8 < s.wr_cnt then wrHold s else wrEnd s

/-- The settle block; its end is `endSettle` (R105). -/
def stBlock (c : Bool) (s : State) : State :=
  if s.st_cnt = 0#8 then s else if 1#8 < s.st_cnt then stHold c s else endSettle s

/-- One TICK: the blocks in the order inhibit, write, settle; `c` was sampled at the start (R100, D8). -/
def tickAll (c : Bool) (s : State) : State := stBlock c (wrBlock (inhBlock s))

/-- `n` times TICK with the implied level: `TICKS n` of R69, the level being that of R68. -/
def ticks : Nat → State → State
  | 0, s => s
  | n + 1, s => ticks n (tickAll (levelOf s.clk_drv) s)

/-! ### The sub-operations -/

/-- TICK.INH.HOLD, R101: selected by `inh_cnt > 1` (R64). -/
def execTickInhHold (s : State) : Result :=
  selected (decide (1#8 < s.inh_cnt)) "TICK.INH.HOLD" (.next (inhHold s))

/-- TICK.INH.END, R101: selected by `inh_cnt = 1` (R64). -/
def execTickInhEnd (s : State) : Result :=
  selected (decide (s.inh_cnt = 1#8)) "TICK.INH.END" (.next (inhEnd s))

/-- TICK.WR.HOLD, R102: selected by `wr_cnt > 1` (R64). -/
def execTickWrHold (s : State) : Result :=
  selected (decide (1#8 < s.wr_cnt)) "TICK.WR.HOLD" (.next (wrHold s))

/-- TICK.WR.END, R103: selected by `wr_cnt = 1` (R64). -/
def execTickWrEnd (s : State) : Result :=
  selected (decide (s.wr_cnt = 1#8)) "TICK.WR.END" (.next (wrEnd s))

/-- TICK.ST.HOLD, R104: selected by `st_cnt > 1` (R64). -/
def execTickStHold (c : Bool) (s : State) : Result :=
  selected (decide (1#8 < s.st_cnt)) "TICK.ST.HOLD" (.next (stHold c s))

/-- TICK.ST.END, R105: selected by `st_cnt = 1` (R64). -/
def execTickStEnd (s : State) : Result :=
  selected (decide (s.st_cnt = 1#8)) "TICK.ST.END" (.next (endSettle s))

/-- TICK.NOP, R106: selected when all three counters are 0 (R64). -/
def execTickNop (s : State) : Result := selected (countersZero s) "TICK.NOP" (.next s)

end Sys2Proof.Machine
end

