-- ==== Sys2Proof/Machine/Interface.lean ====
section
/-! DEFINITION. The seven operations of the interface (44_host_ops.md R120 to R127), the derived Bus Role
(10_state.md R21), and which sub-operation EDGE, TICK and READ select in a state (30_encoding.md R64). -/

namespace Sys2Proof.Machine

/-! ### The Bus Role (R21) -/

/-- The four roles of the source. -/
inductive Role where
  | idle
  | receiving
  | transmitting
  | settling
  deriving DecidableEq, Repr

/-- The role as a function of the stored state, evaluated in the order of R21. No meaning reads it. -/
def role (s : State) : Role :=
  if s.inh_cnt ≠ 0#8 ∨ s.wr_cnt ≠ 0#8 then .idle
  else if s.st_cnt ≠ 0#8 then .settling
  else if s.armed = .enc then .transmitting
  else .receiving

/-! ### The operations -/

/-- RESET, R126: every element takes its value after RESET (R32). What the environment will request next
is not the core's to clear (log 1). -/
def execReset (s : State) : Result := .next { State.reset with trace := s.trace }

/-- INIT, R120: the queue is cleared, both lines are released, the Decoder is armed, the timer is
configured. -/
def execInit (s : State) : Result :=
  .next
    { releaseClock (releaseData { s with queue := s.queue.clear }) with
      armed := .dec
      timer_cfg := true }

/-- EDGE d @now, R122: the dispatch on `armed`. -/
def execEdge (d : Bool) (now : Nat) (s : State) : Result :=
  match s.armed with
  | .dec => decEdge d now s
  | .enc => .next (encEdge d s)

/-- TICK c, R123 and R100. -/
def execTick (c : Bool) (s : State) : Result := .next (tickAll c s)

/-- SEND b, R124. -/
def execSend (b : Byte) (s : State) : Result := .next (requestSend b s)

/-- READ, R125 and R112. -/
def execRead (s : State) : Result := qRead s

/-- INHIBIT, R127: only in the Receiving role, otherwise nothing changes. -/
def execInhibit (s : State) : Result :=
  if s.armed = .dec ∧ s.inh_cnt = 0#8 ∧ s.wr_cnt = 0#8 ∧ s.st_cnt = 0#8 then
    .next { s with inh_cnt := Config.inhibitTicks }
  else .next s

/-! ### Selection (R64) -/

/-- The sub-operation of an EDGE: R64's rows for EDGE, in their order. -/
def edgeSub (d : Bool) (now : Nat) (s : State) : Instr :=
  match s.armed with
  | .dec =>
    if !countersZero s then .decIgnore
    else if (guardedPos now s).val = 0 then .decStart d now
    else if (guardedPos now s).val ≤ 8 then .decData d now
    else if (guardedPos now s).val = 9 then .decParity d now
    else .decStop d now
  | .enc =>
    if s.st_cnt ≠ 0#8 then .encIgnore
    else if s.tx_pos.val ≤ 7 then .encData
    else if s.tx_pos.val = 8 then .encParity
    else if s.tx_pos.val = 9 then .encStop
    else .encAck d

/-- The sub-operations of a TICK, in the order they are performed: R64's rows for TICK. -/
def tickSubs (c : Bool) (s : State) : List Instr :=
  if countersZero s then [.tickNop]
  else
    (if s.inh_cnt = 0#8 then [] else if 1#8 < s.inh_cnt then [.tickInhHold] else [.tickInhEnd]) ++
    (if s.wr_cnt = 0#8 then [] else if 1#8 < s.wr_cnt then [.tickWrHold] else [.tickWrEnd]) ++
    (if s.st_cnt = 0#8 then [] else if 1#8 < s.st_cnt then [.tickStHold c] else [.tickStEnd])

/-- The sub-operation of a READ: R64's rows for READ. -/
def readSub (s : State) : Instr := if s.queue.isEmpty then .qReadEmpty else .qReadByte

end Sys2Proof.Machine
end

