-- ==== Sys2Proof/Machine/Frame.lean ====
section
/-! DEFINITION. The two frame formats run over the wire: RXFRAME as the eleven EDGEs of RXBITS, TXFRAME
as the write sequence WRITE (30_encoding.md R55 to R58, R69; logs 5, 6); and the pseudo-operation DRAIN
of R69. -/

namespace Sys2Proof.Machine

/-- EDGE operations one after the other, each with its level and its time. -/
def runEdges : List (Bool × Nat) → State → Result
  | [], s => .next s
  | (d, now) :: rest, s => andThen (execEdge d now s) (runEdges rest)

/-- RXFRAME: `RXBITS f @now +gap` (R69), what R83 describes from the start of a frame. -/
def execRxframe (f : Frame11) (now gap : Nat) (s : State) : Result := runEdges (frameEdges f now gap) s

/-- `n` EDGEs whose level is what the bus shows with the device not driving the data line (R69). -/
def clockOut : Nat → Nat → Nat → State → Result
  | 0, _, _, s => .next s
  | n + 1, now, gap, s =>
    andThen (execEdge (levelOf s.data_drv) now s) (clockOut n (now + gap) gap)

/-- `TXCLK a @now +gap`: ten such EDGEs, then one that samples the device's level `a` (R69). -/
def txClock (a : Bool) (now gap : Nat) (s : State) : Result :=
  andThen (clockOut 10 now gap s) (execEdge a (now + 10 * gap))

/-- TXFRAME: `WRITE b a` (R69), the twelve bit times of R57 from the request to the end of the settle
phase: SEND, the write-request ticks, the clocked frame, the settle ticks. -/
def execTxframe (a : Bool) (b : Byte) (now gap : Nat) (s : State) : Result :=
  andThen (txClock a now gap (ticks Config.writeTicks.toNat (requestSend b s))) fun t =>
    .next (ticks Config.settleTicks.toNat t)

/-- The word the data line carries while the Encoder is clocked from `s`: bit `i` is the level before the
i-th of `n` further edges (R57). -/
def lineLevels : Nat → State → List Bool
  | 0, s => [levelOf s.data_drv]
  | n + 1, s => levelOf s.data_drv :: lineLevels n (encEdge (levelOf s.data_drv) s)

/-! ### DRAIN (R69) -/

/-- READ repeated until one returns empty, that one included, with at most `n` of them. -/
def drainFrom : Nat → State → Result
  | 0, _ => .fault .tailUnset
  | n + 1, s => andThen (execRead s) fun t => if t.read_ok then drainFrom n t else .next t

/-- The bytes those READs return, the first one first. -/
def drainBytes : Nat → State → List Byte
  | 0, _ => []
  | n + 1, s =>
    match execRead s with
    | .next t =>
      match t.read_byte with
      | some b => b :: drainBytes n t
      | none => []
    | .fault _ => []
    | .refused _ => []

/-- The most READs a DRAIN has: one for each slot and the one that returns empty (R26, R112). After as many
that all returned a byte none ever returns empty: `q_tail` is `NONE`, so that `q_head` never meets it
(log 11). -/
def drainLimit : Nat := Config.queueCapacity + 1

/-- `DRAIN`: "READ repeated until one returns empty; that last READ is part of the expansion" (R69). -/
def drain (s : State) : Result := drainFrom drainLimit s

/-- What a `DRAIN` returns before "empty" (R69). -/
def drained (s : State) : List Byte := drainBytes drainLimit s

end Sys2Proof.Machine
end

