-- ==== Sys2Proof/Machine/Dispatch.lean ====
section
/-! DEFINITION. The dispatch from an operation to its meaning. -/

namespace Sys2Proof.Machine

def exec (i : Instr) (s : State) : Host.Outcome State Fault Refusal :=
  match i with
  | .reset => Sys2Proof.Machine.execReset s
  | .init => Sys2Proof.Machine.execInit s
  | .edge d now => Sys2Proof.Machine.execEdge d now s
  | .tick c => Sys2Proof.Machine.execTick c s
  | .send b => Sys2Proof.Machine.execSend b s
  | .read => Sys2Proof.Machine.execRead s
  | .inhibit => Sys2Proof.Machine.execInhibit s
  | .decIgnore => Sys2Proof.Machine.execDecIgnore s
  | .decStart d now => Sys2Proof.Machine.execDecStart d now s
  | .decData d now => Sys2Proof.Machine.execDecData d now s
  | .decParity d now => Sys2Proof.Machine.execDecParity d now s
  | .decStop d now => Sys2Proof.Machine.execDecStop d now s
  | .encIgnore => Sys2Proof.Machine.execEncIgnore s
  | .encData => Sys2Proof.Machine.execEncData s
  | .encParity => Sys2Proof.Machine.execEncParity s
  | .encStop => Sys2Proof.Machine.execEncStop s
  | .encAck d => Sys2Proof.Machine.execEncAck d s
  | .tickInhHold => Sys2Proof.Machine.execTickInhHold s
  | .tickInhEnd => Sys2Proof.Machine.execTickInhEnd s
  | .tickWrHold => Sys2Proof.Machine.execTickWrHold s
  | .tickWrEnd => Sys2Proof.Machine.execTickWrEnd s
  | .tickStHold c => Sys2Proof.Machine.execTickStHold c s
  | .tickStEnd => Sys2Proof.Machine.execTickStEnd s
  | .tickNop => Sys2Proof.Machine.execTickNop s
  | .qReadEmpty => Sys2Proof.Machine.execQReadEmpty s
  | .qReadByte => Sys2Proof.Machine.execQReadByte s
  | .qPutStore b => Sys2Proof.Machine.execQPutStore b s
  | .qPutDrop b => Sys2Proof.Machine.execQPutDrop b s
  | .qClear => Sys2Proof.Machine.execQClear s
  | .rxframe f now gap => Sys2Proof.Machine.execRxframe f now gap s
  | .txframe a b now gap => Sys2Proof.Machine.execTxframe a b now gap s

end Sys2Proof.Machine
end

