-- ==== Sys2Proof/Machine/Step.lean ====
section
/-! DEFINITION. One step: the next requested operation, decoded and performed (20_memory.md R46,
30_encoding.md R63, R66). The core fetches nothing (R20): the environment requests. -/

namespace Sys2Proof.Machine

/-- The refusal of a line that names no operation (R65, R66, U7). -/
def refusalOf : DecodeError → Refusal
  | .reservedWord w => .reservedWord w
  | .unsendableFrame f => .unsendableFrame f

/-- At most one operation happens in a step (R30): the next line of the trace. With no request pending
nothing happens (log 1). -/
def step (s : State) : Host.Outcome State Fault Refusal :=
  match s.trace with
  | [] => .next s
  | line :: rest =>
    match decode line with
    | .ok i => exec i { s with trace := rest }
    | .error e => .refused (refusalOf e)

/-- The environment requests the operation of this table word next, before all it requested already
(log 1). -/
def State.withFetchWord (s : State) (nbits w : Nat) : State :=
  { s with trace := tableLine nbits w :: s.trace }

end Sys2Proof.Machine
end

