-- ==== Sys2Proof/Safety.lean ====
section
/-! DEFINITION. What claims are stated in: sequences of operations, the states a trace can reach, the
invariants of 10_state.md R33, the discipline of use they need, and the spec's assumptions on the
environment (R29, R30, R31). -/

namespace Sys2Proof

open Machine

/-! ### Sequences and reachable states -/

/-- Operations performed one after the other, each on the state the one before left (R46). -/
def runOps : List Instr → State → Result
  | [], s => .next s
  | i :: rest, s => andThen (exec i s) (runOps rest)

/-- `Q_PUT` of several bytes, the first one first (R114). -/
def putAll : List Byte → State → Result
  | [], s => .next s
  | b :: rest, s => andThen (qPut b s) (putAll rest)

/-- A state reached from RESET by any trace (R33): the requests are arbitrary. -/
inductive Reachable : State → Prop where
  | reset (requests : List TraceLine) : Reachable { State.reset with trace := requests }
  | step (s t : State) : Reachable s → step s = .next t → Reachable t

/-! ### Invariants (R33) -/

/-- R33 items 1, 3 and 4, with R25's "no rule ever reads such a slot" (item 2 is the type of the position
counters). It holds in every state reached from RESET by any trace. -/
def CoreInv (s : State) : Prop :=
  s.queue.wf ∧ s.inh_cnt ≤ Config.inhibitTicks ∧ s.wr_cnt ≤ Config.writeTicks ∧
    s.st_cnt ≤ Config.settleTicks

/-- R33 item 5: at most one of the three countdown counters is nonzero. -/
def AtMostOneCounter (s : State) : Prop :=
  (s.inh_cnt = 0#8 ∧ s.wr_cnt = 0#8) ∨ (s.inh_cnt = 0#8 ∧ s.st_cnt = 0#8) ∨ (s.wr_cnt = 0#8 ∧ s.st_cnt = 0#8)

/-- R33 items 5 and 6, with what makes them inductive: while the inhibit or the write-request phase runs,
the Decoder is armed (the "normal case" of R102). -/
def UseInv (s : State) : Prop :=
  AtMostOneCounter s ∧ (s.st_cnt ≠ 0#8 → s.armed = .enc) ∧
    (s.inh_cnt ≠ 0#8 ∨ s.wr_cnt ≠ 0#8 → s.armed = .dec)

/-- R33's condition on traces: "every SEND and every INIT is issued while the Bus Role of rule R21 is
Receiving". TXFRAME issues a SEND. -/
def usedInRole (i : Instr) (s : State) : Prop :=
  match i with
  | .init => role s = .receiving
  | .send _ => role s = .receiving
  | .txframe _ _ _ _ => role s = .receiving
  | _ => True

/-! ### The environment -/

/-- What the environment must satisfy when it requests an operation: a line the core drives low reads 0
(R31), time does not go backwards (R30), no TICK before the timer is configured (R29). The core does not
check it (log 16). -/
def EnvOk (i : Instr) (s : State) : Prop :=
  match i with
  | .edge d now => (s.data_drv = .low → d = false) ∧ s.rx_last ≤ now
  | .tick c => (s.clk_drv = .low → c = false) ∧ s.timer_cfg = true
  | _ => True

end Sys2Proof
end

