-- ==== Sys2Proof/Certificates/Slice0/Obligations.lean ====
section
/-! DEFINITION. The statements for the provers, each with the rule of spec/ it formalises. A statement about
one operation gives its whole next state (`{ s with ... }`), so every element it does not name is
unchanged: the queue's cursors and every slot, the counters, the flags, the lines. -/

open Sys2Proof Sys2Proof.Machine

/-! ### Steps, lines and words -/

/-- R46: one operation at a time, each on the state the one before left. A step performs the operation of
the next line of the trace; the trace itself is the model's own field (log 1). -/
def Obligations.StepPerformsTheRequestedOperation : Prop :=
  ∀ (s : State) (line : TraceLine) (rest : List TraceLine) (i : Instr),
    s.trace = line :: rest → decode line = .ok i →
      step s = exec i { s with trace := rest }

/-- R30: "At most one per step". The model's choice (log 1): with no request pending nothing changes. -/
def Obligations.StepWithoutARequestChangesNothing : Prop :=
  ∀ s : State, s.trace = [] → step s = .next s

/-- R66: the codes 0x7 to 0xF are refused, the bits an operation does not use are ignored, and every
`imm8` is a legal SEND operand. R65: the core never emits another host-to-device word than the
`txframe(b)`; that such a word is refused is the model's (log 6). -/
def Obligations.ReservedCodesAreRefusedUnusedBitsIgnored : Prop :=
  (∀ (w : TraceWord) (now : Nat) (s : State) (rest : List TraceLine),
    7 ≤ (w.extractLsb' 12 4).toNat → s.trace = .word w now :: rest →
      step s = .refused (.reservedWord w)) ∧
  (∀ (w v : TraceWord) (now : Nat), (w.extractLsb' 12 4).toNat ≤ 6 →
    w &&& (0xF000 ||| usedBits (w.extractLsb' 12 4).toNat) =
      v &&& (0xF000 ||| usedBits (w.extractLsb' 12 4).toNat) →
      decode (.word w now) = decode (.word v now)) ∧
  (∀ (w : TraceWord) (now : Nat), (w.extractLsb' 12 4).toNat = 4 →
    decode (.word w now) = .ok (.send (w.extractLsb' 0 8))) ∧
  (∀ (f : Frame12) (now gap : Nat) (s : State) (rest : List TraceLine),
    f.extractLsb' 0 11 ≠ frameOf (f.extractLsb' 1 8) → s.trace = .frame12 f now gap :: rest →
      step s = .refused (.unsendableFrame f))

/-- Words written out from R63 and R56, with what they stand for (95_test_vectors.md Part 4). -/
def Obligations.WrittenWordsDecode : Prop :=
  decode (.word 0x0000 0) = .ok .reset ∧ decode (.word 0x1000 0) = .ok .init ∧
  decode (.word 0x2100 1003) = .ok (.edge true 1003) ∧ decode (.word 0x2200 7) = .ok (.edge false 7) ∧
  decode (.word 0x3200 0) = .ok (.tick true) ∧ decode (.word 0x3100 0) = .ok (.tick false) ∧
  decode (.word 0x40FE 0) = .ok (.send 0xFE) ∧ decode (.word 0x4CFF 0) = .ok (.send 0xFF) ∧
  decode (.word 0x5000 0) = .ok .read ∧ decode (.word 0x6000 0) = .ok .inhibit ∧
  decode (.word 0x8041 0) = .error (.reservedWord 0x8041) ∧
  decode (.frame11 0x438 1000 1) = .ok (.rxframe 0x438 1000 1) ∧
  decode (.frame12 0xE82 5 1) = .ok (.txframe true 0x41 5 1)

/-- Every operation with a line of its own is read back from that line, with every operand at every
value (R56, R58, R63). -/
def Obligations.DecodeOfEncodeIsTheOperation : Prop :=
  ∀ i : Instr, i.wellFormed = true → ∃ line, encode i = some line ∧ decode line = .ok i

/-- The other direction: a canonical line is the encoding of the operation it decodes to; and the
canonical trace words are those of the operations, none with a reserved code (R63). -/
def Obligations.CanonicalLinesEncodeBack : Prop :=
  (∀ (line : TraceLine) (i : Instr),
    line.canonical = true → decode line = .ok i → encode i = some line) ∧
  (∀ (w : TraceWord) (now : Nat),
    (TraceLine.word w now).canonical = true ↔ ∃ i, encode i = some (.word w now))

/-- R56: the valid frame words are those of the bytes, one for each byte, and each carries its byte. -/
def Obligations.ValidFramesAreTheFramesOfBytes : Prop :=
  (∀ f : Frame11, validFrame f = true ↔ ∃ b : Byte, f = frameOf b) ∧
  (∀ b : Byte, (frameOf b).extractLsb' 1 8 = b) ∧
  (∀ b : Byte, (frameOf b).getLsbD 9 = oddpar b)

/-! ### Operations of the interface -/

/-- R126 with the column "After RESET" of R32. The slots are unspecified there: nothing is said of them. -/
def Obligations.ResetGivesEveryElementItsResetValue : Prop :=
  ∀ s : State, ∃ t, exec .reset s = .next t ∧
    t.armed = .dec ∧ t.rx_pos = 0 ∧ t.rx_byte = 0 ∧ t.rx_par = false ∧ t.rx_bad = false ∧
    t.rx_last = 0 ∧ t.tx_pos = 0 ∧ t.pend = 0 ∧ t.tx_par = false ∧ t.ack_lvl = false ∧
    t.inh_cnt = 0#8 ∧ t.wr_cnt = 0#8 ∧ t.st_cnt = 0#8 ∧ t.queue.q_head = none ∧ t.queue.q_tail = none ∧
    t.data_drv = .rel ∧ t.clk_drv = .rel ∧ t.timer_cfg = false

/-- R120: INIT changes its six elements and nothing else. -/
def Obligations.InitWritesExactlyItsElements : Prop :=
  ∀ s : State, exec .init s = .next
    { s with
      queue := { s.queue with q_head := none, q_tail := none }
      data_drv := .rel
      clk_drv := .rel
      armed := .dec
      timer_cfg := true }

/-- R113: Q.CLEAR unsets both cursors and leaves the slots. -/
def Obligations.ClearUnsetsBothCursors : Prop :=
  ∀ s : State, exec .qClear s = .next { s with queue := { s.queue with q_head := none, q_tail := none } }

/-- R124: SEND captures the byte and arms the write-request phase, in every state, and does nothing
else. -/
def Obligations.SendCapturesByteAndArmsTheWritePhase : Prop :=
  ∀ (b : Byte) (s : State),
    exec (.send b) s = .next { s with pend := b, wr_cnt := Config.writeTicks }

/-- R127: INHIBIT loads its counter in the Receiving role and changes nothing in any other. -/
def Obligations.InhibitActsOnlyInTheReceivingRole : Prop :=
  ∀ s : State,
    (s.armed = .dec ∧ s.inh_cnt = 0#8 ∧ s.wr_cnt = 0#8 ∧ s.st_cnt = 0#8 →
      exec .inhibit s = .next { s with inh_cnt := Config.inhibitTicks }) ∧
    (¬(s.armed = .dec ∧ s.inh_cnt = 0#8 ∧ s.wr_cnt = 0#8 ∧ s.st_cnt = 0#8) → exec .inhibit s = .next s) ∧
    (role s = .receiving ↔ s.armed = .dec ∧ s.inh_cnt = 0#8 ∧ s.wr_cnt = 0#8 ∧ s.st_cnt = 0#8)

/-- R112: READ answers empty on an empty queue; otherwise it answers the byte at `q_head` and moves
`q_head` on, both cursors becoming `NONE` when it meets `q_tail`. The slots keep their bytes. How the two
outputs are held is the model's (log 2). -/
def Obligations.ReadAnswersTheOldestByteOrEmpty : Prop :=
  ∀ s : State,
    (s.queue.q_head = none →
      exec .read s = .next { s with read_ok := false, read_byte := none } ∧
      exec .qReadEmpty s = .next { s with read_ok := false, read_byte := none }) ∧
    (∀ (h k : Fin Config.queueCapacity) (b : Byte),
      s.queue.q_head = some h → s.queue.q_slot.read h.val = some b →
      k.val = (h.val + 1) % Config.queueCapacity →
      (s.queue.q_tail = some k →
        exec .read s = .next
          { s with read_ok := true, read_byte := some b,
                   queue := { s.queue with q_head := none, q_tail := none } }) ∧
      (s.queue.q_tail ≠ some k →
        exec .read s = .next
          { s with read_ok := true, read_byte := some b,
                   queue := { s.queue with q_head := some k } }) ∧
      exec .qReadByte s = exec .read s)

/-- The model's two faults and where they come (logs 10, 11): a READ whose slot no put has written, and a
put with `q_tail` unset beside a set `q_head`. `ReachableStatesAreSound` says that neither is reached. -/
def Obligations.FaultsWhereASlotIsMissing : Prop :=
  (∀ (s : State) (h : Fin Config.queueCapacity),
    s.queue.q_head = some h → s.queue.q_slot.read h.val = none →
      exec .read s = .fault (.slotUnwritten h.val)) ∧
  (∀ (b : Byte) (s : State), s.queue.q_head ≠ none → s.queue.q_tail = none →
    exec (.qPutStore b) s = .fault .tailUnset)

/-- R111: a put on a queue that is not full stores the byte at `q_tail`, or at slot 0 with both cursors
set when the queue is empty, and moves `q_tail` on; on a full queue the byte is dropped and only
`QueueOverflow` is raised. -/
def Obligations.PutStoresOrDrops : Prop :=
  ∀ (b : Byte) (s : State),
    (∀ k : Fin Config.queueCapacity, s.queue.q_head = none → k.val = 1 % Config.queueCapacity →
      exec (.qPutStore b) s = .next
        { s with queue := { q_head := some 0, q_tail := some k, q_slot := s.queue.q_slot.write 0 b } }) ∧
    (∀ h t k : Fin Config.queueCapacity,
      s.queue.q_head = some h → s.queue.q_tail = some t → h ≠ t →
      k.val = (t.val + 1) % Config.queueCapacity →
      exec (.qPutStore b) s = .next
        { s with queue := { s.queue with q_tail := some k, q_slot := s.queue.q_slot.write t.val b } }) ∧
    (s.queue.q_head ≠ none → s.queue.q_head = s.queue.q_tail →
      exec (.qPutDrop b) s = .next { s with raised := s.raised ++ [.queueOverflow] })

/-! ### The Decoder -/

/-- R75: while the Decoder is armed and a countdown runs, an EDGE changes nothing, not even `rx_last`. -/
def Obligations.DecoderIgnoresEdgesDuringAPhase : Prop :=
  ∀ (d : Bool) (now : Nat) (s : State), s.armed = .dec →
    s.inh_cnt ≠ 0#8 ∨ s.wr_cnt ≠ 0#8 ∨ s.st_cnt ≠ 0#8 →
      exec (.edge d now) s = .next s ∧ exec .decIgnore s = .next s

/-- R76: a gap above 100 ms, and only that, sends the position to 0 before the edge is processed; every
processed edge records its time. How the times are compared is the spec's decision D11 (log 13). -/
def Obligations.StaleEdgeStartsAFreshFrame : Prop :=
  ∀ (d : Bool) (now : Nat) (s : State),
    s.armed = .dec → s.inh_cnt = 0#8 → s.wr_cnt = 0#8 → s.st_cnt = 0#8 →
      (s.rx_last ≤ now ∧ 100 < now - s.rx_last →
        exec (.edge d now) s = exec (.edge d now)
          { s with rx_pos := 0, rx_last := now, raised := s.raised ++ [.desync] }) ∧
      (¬(s.rx_last ≤ now ∧ 100 < now - s.rx_last) →
        exec (.edge d now) s = exec (.edge d now) { s with rx_last := now }) ∧
      (∀ t, exec (.edge d now) s = .next t → t.rx_last = now)

/-- R77: the start bit clears the accumulator (the spec's decision D6) and marks the frame invalid if it
is 1. The clause on `rx_last` is R76, the spec's decision D11 (log 13). -/
def Obligations.StartBitOpensAFrame : Prop :=
  ∀ (d : Bool) (now : Nat) (s t : State),
    s.armed = .dec → s.inh_cnt = 0#8 → s.wr_cnt = 0#8 → s.st_cnt = 0#8 →
    isStale now s = true ∨ s.rx_pos = 0 →
    t = { s with
          rx_byte := 0#8
          rx_par := false
          rx_bad := d
          rx_pos := 1
          rx_last := now
          raised := if isStale now s then s.raised ++ [.desync] else s.raised } →
      exec (.edge d now) s = .next t ∧ exec (.decStart d now) s = .next t

/-- R78: a data bit at position k sets bit k-1 and toggles the parity if it is 1. The clause on `rx_last`
is R76, the spec's decision D11 (log 13). -/
def Obligations.DataBitIsAccumulated : Prop :=
  ∀ (d : Bool) (now : Nat) (s t : State) (k' : Fin 11),
    s.armed = .dec → s.inh_cnt = 0#8 → s.wr_cnt = 0#8 → s.st_cnt = 0#8 →
    isStale now s = false → 1 ≤ s.rx_pos.val → s.rx_pos.val ≤ 8 → k'.val = s.rx_pos.val + 1 →
    t = { s with
          rx_byte := if d then s.rx_byte ||| (1#8 <<< (s.rx_pos.val - 1)) else s.rx_byte
          rx_par := if d then !s.rx_par else s.rx_par
          rx_pos := k'
          rx_last := now } →
      exec (.edge d now) s = .next t ∧ exec (.decData d now) s = .next t

/-- R79: the parity bit toggles the parity if it is 1; an even total marks the frame invalid. The clause
on `rx_last` is R76, the spec's decision D11 (log 13). -/
def Obligations.ParityBitIsChecked : Prop :=
  ∀ (d : Bool) (now : Nat) (s t : State),
    s.armed = .dec → s.inh_cnt = 0#8 → s.wr_cnt = 0#8 → s.st_cnt = 0#8 →
    isStale now s = false → s.rx_pos.val = 9 →
    t = { s with
          rx_par := s.rx_par ^^ d
          rx_bad := if (s.rx_par ^^ d) = false then true else s.rx_bad
          rx_pos := 10
          rx_last := now } →
      exec (.edge d now) s = .next t ∧ exec (.decParity d now) s = .next t

/-- R80, R81 with R111: the stop bit of a valid frame puts the byte, or drops it on a full queue, and the
position returns to 0. Only the slot that `storeSlot` names is written: slot 0 with `q_head` = 0 on an
empty queue, the spec's choice D15. The clause on `rx_last` is R76, the spec's decision D11 (log 13). -/
def Obligations.ValidFrameEndsInAPut : Prop :=
  ∀ (now : Nat) (s : State),
    s.armed = .dec → s.inh_cnt = 0#8 → s.wr_cnt = 0#8 → s.st_cnt = 0#8 →
    isStale now s = false → s.rx_pos.val = 10 → s.rx_bad = false →
      (s.queue.isFull = true →
        exec (.edge true now) s = .next
          { s with rx_pos := 0, rx_last := now, raised := s.raised ++ [.queueOverflow] } ∧
        exec (.decStop true now) s = exec (.edge true now) s) ∧
      (∀ a k : Fin Config.queueCapacity, s.queue.isFull = false → s.queue.storeSlot = some a →
        k.val = (a.val + 1) % Config.queueCapacity →
        exec (.edge true now) s = .next
          { s with
            rx_pos := 0
            rx_last := now
            queue := { q_head := some (s.queue.q_head.getD 0), q_tail := some k,
                       q_slot := s.queue.q_slot.write a.val s.rx_byte } } ∧
        exec (.decStop true now) s = exec (.edge true now) s)

/-- R82, R136, R147: at the end of an invalid frame `FrameError` is raised, 0xFE is requested exactly as
a SEND requests a byte (the spec's decision D20), nothing is enqueued, and the position returns to 0. The
clause on `rx_last` is R76, the spec's decision D11 (log 13). -/
def Obligations.InvalidFrameRequestsTheErrorByte : Prop :=
  ∀ (d : Bool) (now : Nat) (s t : State),
    s.armed = .dec → s.inh_cnt = 0#8 → s.wr_cnt = 0#8 → s.st_cnt = 0#8 →
    isStale now s = false → s.rx_pos.val = 10 → s.rx_bad = true ∨ d = false →
    t = { s with
          rx_bad := true
          rx_pos := 0
          rx_last := now
          pend := 0xFE#8
          wr_cnt := Config.writeTicks
          raised := s.raised ++ [.frameError] } →
      exec (.edge d now) s = .next t ∧ exec (.decStop d now) s = .next t ∧
      exec (.send 0xFE)
          { s with rx_bad := true, rx_pos := 0, rx_last := now, raised := s.raised ++ [.frameError] } =
        .next t

/-- R83: eleven edges from position 0, at most 100 ms apart, make a put of `F[8:1]` if the frame word is
valid and a request for 0xFE if it is not. The premise on the cursors is R33 item 1; the value of
`rx_last` is R76, the spec's decision D11 (log 13); the request as a SEND makes it is D20. From every
state, in mid-frame and with gaps above 100 ms too, RXFRAME is its eleven EDGEs (RXBITS of R69): that the
row RXFRAME is they, and one step, is the model's (logs 5, 21). -/
def Obligations.DecoderAsAFunctionOfTheFrame : Prop :=
  (∀ (f : Frame11) (now gap : Nat) (s : State),
    s.armed = .dec → s.inh_cnt = 0#8 → s.wr_cnt = 0#8 → s.st_cnt = 0#8 → s.rx_pos = 0 → gap ≤ 100 →
    (s.queue.q_head = none ↔ s.queue.q_tail = none) →
      ∃ t, exec (.rxframe f now gap) s = .next t ∧
        t.rx_pos = 0 ∧ t.rx_byte = f.extractLsb' 1 8 ∧ t.rx_par = frameParity f ∧
        t.rx_bad = !validFrame f ∧ t.rx_last = now + 10 * gap ∧
        (validFrame f = true → t.pend = s.pend ∧ t.wr_cnt = 0#8 ∧
          ∃ u, qPut (f.extractLsb' 1 8) s = .next u ∧ t.queue = u.queue) ∧
        (validFrame f = false → t.pend = 0xFE#8 ∧ t.wr_cnt = Config.writeTicks ∧ t.queue = s.queue) ∧
        t = { s with
              rx_byte := t.rx_byte, rx_par := t.rx_par, rx_bad := t.rx_bad, rx_last := t.rx_last,
              queue := t.queue, pend := t.pend, wr_cnt := t.wr_cnt, raised := t.raised }) ∧
  (∀ (f : Frame11) (now gap : Nat) (s : State),
    exec (.rxframe f now gap) s =
      runOps ((List.range 11).map fun i => .edge (f.getLsbD i) (now + i * gap)) s)

/-- R84, R114: a valid frame received into an empty queue is read back as the byte it carries, bit 0
having come first. -/
def Obligations.ReceivedByteIsReadBack : Prop :=
  ∀ (b : Byte) (now gap : Nat) (s : State),
    s.armed = .dec → s.inh_cnt = 0#8 → s.wr_cnt = 0#8 → s.st_cnt = 0#8 → s.rx_pos = 0 → gap ≤ 100 →
    s.queue.q_head = none → s.queue.q_tail = none →
      ∃ t, runOps [.rxframe (frameOf b) now gap, .read] s = .next t ∧
        t.read_ok = true ∧ t.read_byte = some b ∧ t.queue.q_head = none ∧ t.queue.q_tail = none

/-- R84: a frame with one of its data or parity bits flipped, or with stop bit 0, puts nothing. -/
def Obligations.CorruptedFramePutsNothing : Prop :=
  ∀ (f : Frame11) (b : Byte) (k now gap : Nat) (s : State),
    s.armed = .dec → s.inh_cnt = 0#8 → s.wr_cnt = 0#8 → s.st_cnt = 0#8 → s.rx_pos = 0 → gap ≤ 100 →
    (1 ≤ k ∧ k ≤ 9 ∧ f = frameOf b ^^^ (1#11 <<< k)) ∨ f.getLsbD 10 = false →
      ∃ t, exec (.rxframe f now gap) s = .next t ∧ t.queue = s.queue ∧ t.rx_bad = true ∧
        t.pend = 0xFE#8 ∧ .frameError ∈ t.raised

/-! ### The Encoder -/

/-- R91: while the Encoder is armed and the settle phase runs, an EDGE changes nothing. -/
def Obligations.EncoderIgnoresEdgesWhileSettling : Prop :=
  ∀ (d : Bool) (now : Nat) (s : State), s.armed = .enc → s.st_cnt ≠ 0#8 →
    exec (.edge d now) s = .next s ∧ exec .encIgnore s = .next s

/-- R92: positions 0 to 7 emit the low bit of `pend`, shift it, and track the parity from 0 at
position 0. -/
def Obligations.DataBitIsEmitted : Prop :=
  ∀ (d : Bool) (now : Nat) (s t : State) (k' : Fin 11),
    s.armed = .enc → s.st_cnt = 0#8 → s.tx_pos.val ≤ 7 → k'.val = s.tx_pos.val + 1 →
    t = { s with
          data_drv := if s.pend.getLsbD 0 then .rel else .low
          tx_par := (if s.tx_pos = 0 then false else s.tx_par) ^^ s.pend.getLsbD 0
          pend := s.pend >>> 1
          tx_pos := k' } →
      exec (.edge d now) s = .next t ∧ exec .encData s = .next t

/-- R93: position 8 emits the complement of the running parity, which stays. -/
def Obligations.ParityBitIsEmitted : Prop :=
  ∀ (d : Bool) (now : Nat) (s t : State),
    s.armed = .enc → s.st_cnt = 0#8 → s.tx_pos.val = 8 →
    t = { s with data_drv := if s.tx_par then .low else .rel, tx_pos := 9 } →
      exec (.edge d now) s = .next t ∧ exec .encParity s = .next t

/-- R94: position 9 releases the data line. -/
def Obligations.StopBitReleasesTheDataLine : Prop :=
  ∀ (d : Bool) (now : Nat) (s t : State),
    s.armed = .enc → s.st_cnt = 0#8 → s.tx_pos.val = 9 →
    t = { s with data_drv := .rel, tx_pos := 10 } →
      exec (.edge d now) s = .next t ∧ exec .encStop s = .next t

/-- R95, R138: position 10 samples the acknowledgment and starts the settle phase whatever it is; a 1
raises `NoAck`, which changes nothing but the latch. -/
def Obligations.AcknowledgmentStartsTheSettlePhase : Prop :=
  ∀ (d : Bool) (now : Nat) (s t : State),
    s.armed = .enc → s.st_cnt = 0#8 → s.tx_pos.val = 10 →
    t = { s with
          ack_lvl := d
          st_cnt := Config.settleTicks
          clk_drv := .low
          tx_pos := 0
          raised := if d then s.raised ++ [.noAck] else s.raised } →
      exec (.edge d now) s = .next t ∧ exec (.encAck d) s = .next t

/-- R96: from position 0 with the start bit on the line, ten edges put `txframe(pend)` on the data line,
whatever the ten sampled levels are, and the eleventh samples the acknowledgment. The values of `tx_par`,
`tx_pos` and `ack_lvl` at the end rest on the spec's decisions D6, D13 and D14. -/
def Obligations.EncoderEmitsTheFrameOfTheByte : Prop :=
  ∀ (s : State) (es : List (Bool × Nat)) (a : Bool) (now : Nat),
    s.armed = .enc → s.st_cnt = 0#8 → s.tx_pos = 0 → s.data_drv = .low → es.length = 10 →
      lineLevels 10 s = (List.range 11).map (fun i => (frameOf s.pend).getLsbD i) ∧
      runEdges (es ++ [(a, now)]) s = .next
        { s with
          ack_lvl := a
          st_cnt := Config.settleTicks
          clk_drv := .low
          data_drv := .rel
          tx_pos := 0
          pend := 0#8
          tx_par := !oddpar s.pend
          raised := if a then s.raised ++ [.noAck] else s.raised }

/-! ### The Timing Sequencer -/

/-- R100: one TICK, field by field, for every combination of the three counters: the blocks inhibit,
write, settle, the last one to touch a line winning. The end at 1 is the spec's decision D7, several
counters at once D8 (log 20). -/
def Obligations.TickPerformsItsThreeBlocks : Prop :=
  ∀ (c : Bool) (s : State),
    exec (.tick c) s = .next
      { s with
        inh_cnt := if s.inh_cnt = 0#8 then 0#8 else s.inh_cnt - 1#8
        wr_cnt := if s.wr_cnt = 0#8 then 0#8 else s.wr_cnt - 1#8
        st_cnt := if s.st_cnt = 0#8 then 0#8 else s.st_cnt - 1#8
        armed := if s.st_cnt = 1#8 then .dec else if s.wr_cnt = 1#8 then .enc else s.armed
        rx_pos := if s.wr_cnt = 1#8 then 0 else s.rx_pos
        tx_pos := if s.wr_cnt = 1#8 then 0 else s.tx_pos
        data_drv := if s.wr_cnt = 1#8 then .low else s.data_drv
        clk_drv :=
          if s.st_cnt = 1#8 then .rel
          else if s.st_cnt ≠ 0#8 ∧ c = true then .low
          else if s.wr_cnt = 1#8 then .rel
          else if s.wr_cnt ≠ 0#8 then .low
          else if s.inh_cnt = 1#8 then .rel
          else if s.inh_cnt ≠ 0#8 then .low
          else s.clk_drv }

/-- R101: the inhibit phase forces the clock low while above one and releases it upon reaching one; while
it runs the role is Idle and the Decoder ignores edges. That the guard of R75 tests `inh_cnt` is the
spec's own choice D9. -/
def Obligations.InhibitPhaseHoldsThenReleasesTheClock : Prop :=
  ∀ s : State,
    (1#8 < s.inh_cnt →
      exec .tickInhHold s = .next { s with clk_drv := .low, inh_cnt := s.inh_cnt - 1#8 }) ∧
    (s.inh_cnt = 1#8 → exec .tickInhEnd s = .next { s with clk_drv := .rel, inh_cnt := 0#8 }) ∧
    (s.inh_cnt ≠ 0#8 → role s = .idle ∧
      (s.armed = .dec → ∀ d now, exec (.edge d now) s = .next s))

/-- R102: the write-request phase before its last tick forces the clock low. -/
def Obligations.WriteRequestHoldsTheClock : Prop :=
  ∀ s : State, 1#8 < s.wr_cnt →
    exec .tickWrHold s = .next { s with clk_drv := .low, wr_cnt := s.wr_cnt - 1#8 }

/-- R103: the last tick of the write-request phase; with the other counters 0 the role is Transmitting. -/
def Obligations.WriteRequestEndsWithTheStartBit : Prop :=
  ∀ s t : State, s.wr_cnt = 1#8 →
    t = { s with
          data_drv := .low, rx_pos := 0, tx_pos := 0, armed := .enc, clk_drv := .rel, wr_cnt := 0#8 } →
      exec .tickWrEnd s = .next t ∧ (s.inh_cnt = 0#8 → s.st_cnt = 0#8 → role t = .transmitting)

/-- R104: the settle phase before its last tick forces the clock low if it was observed high. -/
def Obligations.SettleHoldsTheClockIfHigh : Prop :=
  ∀ s : State, 1#8 < s.st_cnt →
    exec (.tickStHold true) s = .next { s with clk_drv := .low, st_cnt := s.st_cnt - 1#8 } ∧
    exec (.tickStHold false) s = .next { s with st_cnt := s.st_cnt - 1#8 }

/-- R105, R148: the last tick of the settle phase arms the Decoder and releases the clock; with the other
counters 0 the role is Receiving. -/
def Obligations.SettleEndsInReceiving : Prop :=
  ∀ s : State, s.st_cnt = 1#8 →
    exec .tickStEnd s = .next { s with armed := .dec, clk_drv := .rel, st_cnt := 0#8 } ∧
    (s.inh_cnt = 0#8 → s.wr_cnt = 0#8 →
      role { s with armed := .dec, clk_drv := .rel, st_cnt := 0#8 } = .receiving)

/-- R106: with all counters 0 a TICK changes nothing. -/
def Obligations.IdleTickChangesNothing : Prop :=
  ∀ (c : Bool) (s : State), s.inh_cnt = 0#8 → s.wr_cnt = 0#8 → s.st_cnt = 0#8 →
    exec (.tick c) s = .next s ∧ exec .tickNop s = .next s

/-- R100: a counter never goes below 0, and one loaded with the value V is 0 after exactly V ticks,
whatever clock levels they sample. That the load V lasts V ticks is the spec's decision D7, that every
running counter falls at each tick its decision D8 (log 20). -/
def Obligations.CounterLivesExactlyItsLoad : Prop :=
  ∀ (cs : List Bool) (s : State), ∃ t, runOps (cs.map .tick) s = .next t ∧
    t.inh_cnt.toNat = s.inh_cnt.toNat - cs.length ∧
    t.wr_cnt.toNat = s.wr_cnt.toNat - cs.length ∧
    t.st_cnt.toNat = s.st_cnt.toNat - cs.length

/-- R107: a write that starts in the Receiving role and is clocked eleven times ends in the Receiving
role with the acknowledgment sampled and nothing else of the exchange left. From any other role (R178
cases 1, 2 and 4, and case 3 with no edge before the restarted phase ends) it ends alike, with a running
inhibit phase fifteen ticks further on; the premise on `st_cnt` is R33 item 3. One operation for the
whole sequence is the model's (logs 6, 21); the loads are the defaults of R7 (log 9); the rest on which
it rests are the spec's decisions D6, D7, D8 (log 20), D13 and D14. -/
def Obligations.WriteSequenceReturnsToReceiving : Prop :=
  (∀ (a : Bool) (b : Byte) (now gap : Nat) (s : State), role s = .receiving →
    exec (.txframe a b now gap) s = .next
      { s with
        pend := 0#8
        tx_par := !oddpar b
        ack_lvl := a
        rx_pos := 0
        tx_pos := 0
        data_drv := .rel
        clk_drv := .rel
        raised := if a then s.raised ++ [.noAck] else s.raised }) ∧
  (∀ (a : Bool) (b : Byte) (now gap : Nat) (s : State), s.st_cnt ≤ Config.settleTicks →
    exec (.txframe a b now gap) s = .next
      { s with
        armed := .dec
        pend := 0#8
        tx_par := !oddpar b
        ack_lvl := a
        rx_pos := 0
        tx_pos := 0
        inh_cnt :=
          BitVec.ofNat 8 (s.inh_cnt.toNat - (Config.writeTicks.toNat + Config.settleTicks.toNat))
        wr_cnt := 0#8
        st_cnt := 0#8
        data_drv := .rel
        clk_drv := .rel
        raised := if a then s.raised ++ [.noAck] else s.raised })

/-- R178 case 4: a SEND during the settle phase is sent intact: after `WRITE_TICKS` ticks the Encoder is
armed at position 0 with the new byte and the start bit on the line, and the levels of the data line over
the bit times that follow are the frame of that byte (R96). Two counters running at once is the spec's
decision D8 (log 20), to be flagged as assumed; the loads are the defaults of R7 (log 9). The premise on
`st_cnt` is R33 item 3. -/
def Obligations.SendDuringSettleIsSentIntact : Prop :=
  ∀ (b : Byte) (s : State), s.armed = .enc → s.st_cnt ≠ 0#8 → s.inh_cnt = 0#8 →
    s.st_cnt ≤ Config.settleTicks →
      ∀ cs : List Bool, cs.length = Config.writeTicks.toNat →
        ∃ t, runOps (.send b :: cs.map .tick) s = .next t ∧
          t.armed = .enc ∧ t.tx_pos = 0 ∧ t.pend = b ∧ t.data_drv = .low ∧ t.clk_drv = .rel ∧
          t.wr_cnt = 0#8 ∧ t.st_cnt = 0#8 ∧
          lineLevels 10 t = (List.range 11).map fun i => (frameOf b).getLsbD i

/-- R181: without EDGE, SEND, INIT and RESET nothing ends the Transmitting role. -/
def Obligations.TransmittingWaitsForTheDevice : Prop :=
  ∀ (is : List Instr) (s t : State), role s = .transmitting →
    (∀ i ∈ is, i = .read ∨ i = .inhibit ∨ ∃ c, i = .tick c) →
    runOps is s = .next t → role t = .transmitting ∧ t.tx_pos = s.tx_pos ∧ t.pend = s.pend

/-! ### Selection of sub-operations -/

/-- R64: EDGE, READ and TICK are their selected sub-operations; a TICK performs each applicable one, in
the order inhibit, write, settle, which is the spec's decision D8 (log 20). That `inh_cnt` selects
DEC.IGNORE is its choice D9. -/
def Obligations.OperationsAreTheirSelectedSubOperations : Prop :=
  ∀ (d c : Bool) (now : Nat) (s : State),
    exec (.edge d now) s = exec (edgeSub d now s) s ∧
    exec .read s = exec (readSub s) s ∧
    exec (.tick c) s = runOps (tickSubs c s) s

/-- R64: of the sub-operations of EDGE, TICK, READ and put, a state lets exactly the selected ones happen.
That the others are refused by name, and not given another effect, is the model's (log 4). -/
def Obligations.UnselectedSubOperationsAreRefused : Prop :=
  (∀ (d : Bool) (now : Nat) (s : State) (i : Instr),
    i ∈ [.decIgnore, .decStart d now, .decData d now, .decParity d now, .decStop d now,
         .encIgnore, .encData, .encParity, .encStop, .encAck d] →
      ((∃ m, exec i s = .refused (.notSelected m)) ↔ i ≠ edgeSub d now s)) ∧
  (∀ (c : Bool) (s : State) (i : Instr),
    i ∈ [.tickInhHold, .tickInhEnd, .tickWrHold, .tickWrEnd, .tickStHold c, .tickStEnd, .tickNop] →
      ((∃ m, exec i s = .refused (.notSelected m)) ↔ i ∉ tickSubs c s)) ∧
  (∀ (s : State) (i : Instr), i ∈ [.qReadEmpty, .qReadByte] →
      ((∃ m, exec i s = .refused (.notSelected m)) ↔ i ≠ readSub s)) ∧
  (∀ (b : Byte) (s : State),
    ((∃ m, exec (.qPutStore b) s = .refused (.notSelected m)) ↔ s.queue.isFull = true) ∧
    ((∃ m, exec (.qPutDrop b) s = .refused (.notSelected m)) ↔ s.queue.isFull = false))

/-! ### The queue as a first-in first-out list -/

/-- R114: in terms of `contents`, a put on a queue that is not full appends, a put on a full queue changes
nothing, a READ removes and answers the first byte, a READ on an empty queue answers nothing. A DRAIN
(R69) is one READ for each byte of `contents` and one more: it returns them in order, then empty, and
leaves both cursors unset and every slot as it was. The premise is R33 items 1 and 4 with R25. How the
outputs of READ are held is the model's (log 2). -/
def Obligations.QueueIsAFifoList : Prop :=
  ∀ s : State, s.queue.wf →
    (∀ b, s.queue.isFull = false → ∃ t, qPut b s = .next t ∧ t.queue.wf ∧
      t.queue.contents = s.queue.contents ++ [b]) ∧
    (∀ b, s.queue.isFull = true → ∃ t, qPut b s = .next t ∧ t.queue = s.queue) ∧
    (∀ b bs, s.queue.contents = b :: bs → ∃ t, exec .read s = .next t ∧ t.read_ok = true ∧
      t.read_byte = some b ∧ t.queue.wf ∧ t.queue.contents = bs) ∧
    (s.queue.contents = [] → ∃ t, exec .read s = .next t ∧ t.read_ok = false ∧ t.read_byte = none ∧
      t.queue = s.queue) ∧
    s.queue.contents.length = s.queue.count ∧ s.queue.count ≤ Config.queueCapacity ∧
    drained s = s.queue.contents ∧
    drain s = .next
      { s with read_ok := false, read_byte := none,
               queue := { s.queue with q_head := none, q_tail := none } } ∧
    runOps (List.replicate (s.queue.contents.length + 1) .read) s = drain s

/-- R114: putting any number of bytes into an empty queue retains exactly the first N, in their order. -/
def Obligations.QueueRetainsTheFirstN : Prop :=
  ∀ (bs : List Byte) (s : State), s.queue.wf → s.queue.q_head = none →
    ∃ t, putAll bs s = .next t ∧ t.queue.wf ∧
      t.queue.contents = bs.take Config.queueCapacity

/-! ### Whole-machine rules -/

/-- R11: who writes `armed`, and to what. -/
def Obligations.ArmedIsWrittenOnlyAtPhaseEnds : Prop :=
  ∀ (i : Instr) (s t : State), exec i s = .next t → t.armed ≠ s.armed →
    (t.armed = .dec ∧ (i = .reset ∨ i = .init ∨
      (s.st_cnt = 1#8 ∧ (i = .tickStEnd ∨ ∃ c, i = .tick c)) ∨ ∃ a b now gap, i = .txframe a b now gap)) ∨
    (t.armed = .enc ∧
      ((s.wr_cnt = 1#8 ∧ (i = .tickWrEnd ∨ ∃ c, i = .tick c)) ∨ ∃ a b now gap, i = .txframe a b now gap))

/-- R29: INIT sets `timer_cfg`, RESET clears it, nothing else writes it. -/
def Obligations.TimerFlagIsWrittenOnlyByInitAndReset : Prop :=
  ∀ (i : Instr) (s t : State), exec i s = .next t →
    (i = .init → t.timer_cfg = true) ∧ (i = .reset → t.timer_cfg = false) ∧
    (i ≠ .init → i ≠ .reset → t.timer_cfg = s.timer_cfg)

/-- R34: what the application's operations, and the two interrupt operations, may write. -/
def Obligations.OperationsKeepToTheirElements : Prop :=
  (∀ s t, exec .read s = .next t →
    t.queue.q_slot = s.queue.q_slot ∧
    t = { s with read_ok := t.read_ok, read_byte := t.read_byte, queue := t.queue }) ∧
  (∀ s t, exec .init s = .next t → t.queue.q_slot = s.queue.q_slot ∧
    t = { s with queue := t.queue, data_drv := t.data_drv, clk_drv := t.clk_drv, armed := t.armed,
                 timer_cfg := t.timer_cfg }) ∧
  (∀ b s t, exec (.send b) s = .next t → t = { s with pend := t.pend, wr_cnt := t.wr_cnt }) ∧
  (∀ s t, exec .inhibit s = .next t → t = { s with inh_cnt := t.inh_cnt }) ∧
  (∀ d now s t, exec (.edge d now) s = .next t → t.timer_cfg = s.timer_cfg) ∧
  (∀ c s t, exec (.tick c) s = .next t → t.timer_cfg = s.timer_cfg)

/-- 40_decoder.md section 1 and R90: the Decoder writes nothing of the Encoder's, no line and no `armed`;
the Encoder writes nothing of the Decoder's, no `armed`, no other counter and nothing of the queue. -/
def Obligations.HandlersKeepToTheirOwnSide : Prop :=
  ∀ (d : Bool) (now : Nat) (s t : State), exec (.edge d now) s = .next t →
    (s.armed = .dec → t = { s with
      rx_pos := t.rx_pos, rx_byte := t.rx_byte, rx_par := t.rx_par, rx_bad := t.rx_bad,
      rx_last := t.rx_last, queue := t.queue, pend := t.pend, wr_cnt := t.wr_cnt,
      raised := t.raised }) ∧
    (s.armed = .enc → t = { s with
      tx_pos := t.tx_pos, tx_par := t.tx_par, pend := t.pend, ack_lvl := t.ack_lvl,
      st_cnt := t.st_cnt, data_drv := t.data_drv, clk_drv := t.clk_drv, raised := t.raised })

/-- R25: a slot is written only by a put: every operation but RESET, after which the slots are
unspecified, leaves every slot other than the one a put stores to. -/
def Obligations.SlotsAreWrittenOnlyByAPut : Prop :=
  ∀ (i : Instr) (s t : State) (a : Nat), exec i s = .next t → i ≠ .reset →
    (∀ f now gap, i ≠ .rxframe f now gap) →
    (∀ b now gap ack, i ≠ .txframe ack b now gap) →
    t.queue.q_slot.read a ≠ s.queue.q_slot.read a →
      s.queue.storeSlot.map Fin.val = some a ∧ s.queue.isFull = false ∧
      ((∃ b, i = .qPutStore b) ∨ (∃ d now, i = .decStop d now) ∨
        (∃ d now, i = .edge d now ∧ s.armed = .dec ∧ (guardedPos now s).val = 10))

/-- R135, R140: the only operations of the interface that raise a condition are EDGEs, and each EDGE
raises what R136 to R139 say: `Desync` from the staleness guard, then one of `FrameError`,
`QueueOverflow`, or `NoAck` from the Encoder. -/
def Obligations.ConditionsAreRaisedOnlyWhereTheyOccur : Prop :=
  (∀ (d : Bool) (now : Nat) (s t : State), exec (.edge d now) s = .next t →
    t.raised = s.raised ++
      (if s.armed = .enc then
        (if s.st_cnt = 0#8 ∧ s.tx_pos.val = 10 ∧ d = true then [.noAck] else [])
      else if s.inh_cnt ≠ 0#8 ∨ s.wr_cnt ≠ 0#8 ∨ s.st_cnt ≠ 0#8 then []
      else
        (if isStale now s then [.desync] else []) ++
        (if (guardedPos now s).val = 10 then
          (if s.rx_bad = true ∨ d = false then [.frameError]
          else if s.queue.isFull then [.queueOverflow] else [])
        else []))) ∧
  (∀ (i : Instr) (s t : State),
    i = .init ∨ i = .read ∨ i = .inhibit ∨ (∃ c, i = .tick c) ∨ (∃ b, i = .send b) →
    exec i s = .next t → t.raised = s.raised)

/-- R128: every change of the Bus Role by one operation of the interface, from a state of ordinary use
(R33 items 5 and 6), is a row of the table. INHIBIT and its row are the spec's addition D10. -/
def Obligations.RoleChangesOnlyAsTabled : Prop :=
  ∀ (i : Instr) (s t : State), UseInv s → exec i s = .next t → role t ≠ role s →
    i ∈ [.reset, .init, .read, .inhibit] ∨ (∃ d now, i = .edge d now) ∨ (∃ c, i = .tick c) ∨
      (∃ b, i = .send b) →
    (role s = .receiving ∧ role t = .idle ∧
      ((∃ b, i = .send b) ∨ i = .inhibit ∨
        ∃ d now, i = .edge d now ∧ (guardedPos now s).val = 10 ∧ (s.rx_bad = true ∨ d = false))) ∨
    (role s = .idle ∧ role t = .receiving ∧ s.inh_cnt = 1#8 ∧ ∃ c, i = .tick c) ∨
    (role s = .idle ∧ role t = .transmitting ∧ s.wr_cnt = 1#8 ∧ t.rx_pos = 0 ∧ t.tx_pos = 0 ∧
      ∃ c, i = .tick c) ∨
    (role s = .transmitting ∧ role t = .settling ∧ s.tx_pos.val = 10 ∧ ∃ d now, i = .edge d now) ∨
    (role s = .settling ∧ role t = .receiving ∧ s.st_cnt = 1#8 ∧ ∃ c, i = .tick c) ∨
    (role t = .idle ∧ ∃ b, i = .send b) ∨
    (t.armed = .dec ∧ i = .init) ∨
    (role t = .receiving ∧ i = .reset)

/-- R180: in undisturbed operation the falling edge that the core makes itself, at a hold tick of the
write-request and the inhibit phase with the Decoder armed, at the acknowledgment and at a settle hold
tick with the Encoder armed, changes nothing if it comes back as an EDGE. (Where a SEND interrupts a
transmission, R178 case 3, it does act: the first clause has the Decoder armed.) The inhibit clause rests
on `inh_cnt` in the guard of R75, the spec's own choice D9, to be flagged as assumed. -/
def Obligations.SelfCausedEdgesAreHarmless : Prop :=
  ∀ (d d' c : Bool) (now : Nat) (s t : State),
    (s.armed = .dec → 1#8 < s.wr_cnt → exec .tickWrHold s = .next t →
      exec (.edge d now) t = .next t) ∧
    (s.armed = .dec → 1#8 < s.inh_cnt → exec .tickInhHold s = .next t →
      exec (.edge d now) t = .next t) ∧
    (exec (.encAck d') s = .next t → exec (.edge d now) t = .next t) ∧
    (s.armed = .enc → 1#8 < s.st_cnt → exec (.tickStHold c) s = .next t →
      exec (.edge d now) t = .next t)

/-- R153: what the environment requests is not the core's: no operation changes the trace (log 1). -/
def Obligations.NoOperationChangesTheRequests : Prop :=
  ∀ (i : Instr) (s t : State), exec i s = .next t → t.trace = s.trace

/-- R31, R104: when the environment respects the wired-AND of the lines, a settle tick that finds the
clock driven low by the core leaves it so. -/
def Obligations.SettleHoldKeepsADrivenClock : Prop :=
  ∀ (c : Bool) (s : State), EnvOk (.tick c) s → s.clk_drv = .low → 1#8 < s.st_cnt →
    s.inh_cnt = 0#8 → s.wr_cnt = 0#8 → exec (.tick c) s = .next { s with st_cnt := s.st_cnt - 1#8 }

/-! ### Invariants -/

/-- The invariants of R33 hold right after reset. -/
def Obligations.InvariantsHoldAtReset : Prop := CoreInv State.reset ∧ UseInv State.reset

/-- R33 items 1, 3, 4 and R25: from every state that meets them no step faults, and every next state
meets them again, whatever is requested (R140). -/
def Obligations.StepKeepsTheInvariant : Prop :=
  ∀ s : State, CoreInv s → (∀ f, step s ≠ .fault f) ∧ ∀ t, step s = .next t → CoreInv t

/-- R33: items 1, 3 and 4 "hold in every state reached from RESET by any trace"; and no such state faults,
so READ never meets a slot that no put has written (R25, U3, R140). -/
def Obligations.ReachableStatesAreSound : Prop :=
  ∀ s : State, Reachable s → CoreInv s ∧ ∀ f, step s ≠ .fault f

/-- R33 items 5 and 6: kept by every operation, as long as SEND and INIT are issued in the Receiving
role. -/
def Obligations.UseInRoleKeepsCountersExclusive : Prop :=
  ∀ (i : Instr) (s t : State), UseInv s → usedInRole i s → exec i s = .next t → UseInv t
end

