-- ==== Sys2Proof/Laws/Memory.lean ====
section
/-! SUPPORT. The slot array and the queue: read after write, the canonical form, and that every operation
on the queue keeps it. -/

namespace Sys2Proof.Machine

theorem Memory.read_write_same (m : Memory) (a : Nat) (b : Byte) : (m.write a b).read a = some b := by
  induction m with
  | nil => simp [Memory.write, Memory.read]
  | cons c rest ih =>
    obtain ⟨k, v⟩ := c
    unfold Memory.write
    split
    · simp [Memory.read]
    · split
      · simp [Memory.read]
      · rename_i h₁ h₂
        simpa [Memory.read, Ne.symm h₂] using ih

theorem Memory.read_write_other (m : Memory) {a a' : Nat} (b : Byte) (h : a' ≠ a) :
    (m.write a b).read a' = m.read a' := by
  induction m with
  | nil => simp [Memory.write, Memory.read, h.symm]
  | cons c rest ih =>
    obtain ⟨k, v⟩ := c
    unfold Memory.write
    split
    · simp [Memory.read, h.symm]
    · split
      · rename_i h₁ h₂
        subst h₂
        simp [Memory.read, h.symm]
      · simp [Memory.read, ih]

/-- What a write lists: the entry it writes, or one that was listed. -/
theorem Memory.mem_write {m : Memory} {a : Nat} {b : Byte} {c : Host.Cell} (h : c ∈ m.write a b) :
    c = (a, b) ∨ c ∈ m := by
  induction m with
  | nil => simpa [Memory.write] using h
  | cons d rest ih =>
    obtain ⟨k, v⟩ := d
    unfold Memory.write at h
    split at h
    · simpa using h
    · split at h
      · simp only [List.mem_cons] at h ⊢
        tauto
      · simp only [List.mem_cons] at h ⊢
        rcases h with h | h
        · tauto
        · rcases ih h with h | h <;> tauto

/-- A write keeps the canonical form. -/
theorem Memory.write_wf {m : Memory} (h : m.wf) (a : Nat) (b : Byte) : (m.write a b).wf := by
  induction m with
  | nil => simp [Memory.write, Memory.wf]
  | cons c rest ih =>
    obtain ⟨k, v⟩ := c
    have hk := List.pairwise_cons.mp h
    unfold Memory.write
    split
    · rename_i h₁
      refine List.pairwise_cons.mpr ⟨?_, h⟩
      intro d hd
      rcases List.mem_cons.mp hd with rfl | hd
      · exact h₁
      · exact Nat.lt_trans h₁ (hk.1 d hd)
    · split
      · rename_i h₁ h₂
        subst h₂
        exact List.pairwise_cons.mpr ⟨hk.1, hk.2⟩
      · rename_i h₁ h₂
        refine List.pairwise_cons.mpr ⟨?_, ih hk.2⟩
        intro d hd
        rcases Memory.mem_write hd with rfl | hd
        · show k < a
          omega
        · exact hk.1 d hd

/-- The slot array after reset is in canonical form. -/
theorem Memory.reset_wf : Memory.wf State.reset.queue.q_slot := List.Pairwise.nil

/-- Two canonical slot arrays that read alike at every slot are the same list. -/
theorem Memory.ext_of_wf {m m' : Memory} (h : m.wf) (h' : m'.wf) (hr : ∀ a, m.read a = m'.read a) :
    m = m' := by
  have below : ∀ {n : Memory} {k : Nat}, (∀ d ∈ n, k < d.1) → n.read k = none := by
    intro n k hn
    induction n with
    | nil => rfl
    | cons d rest ih =>
      have := hn d (by simp)
      simp only [Memory.read]
      rw [if_neg (by omega)]
      exact ih fun e he => hn e (by simp [he])
  induction m generalizing m' with
  | nil =>
    cases m' with
    | nil => rfl
    | cons d rest => simpa [Memory.read] using hr d.1
  | cons c rest ih =>
    cases m' with
    | nil => simpa [Memory.read] using hr c.1
    | cons d rest' =>
      obtain ⟨k, v⟩ := c
      obtain ⟨k', v'⟩ := d
      have hc := List.pairwise_cons.mp h
      have hd := List.pairwise_cons.mp h'
      have hkk : k = k' := by
        rcases Nat.lt_trichotomy k k' with hlt | heq | hlt
        · have h₁ : Memory.read ((k', v') :: rest') k = none := below fun e he => by
            rcases List.mem_cons.mp he with rfl | he
            · exact hlt
            · exact Nat.lt_trans hlt (hd.1 e he)
          have := hr k
          rw [h₁] at this
          simp [Memory.read] at this
        · exact heq
        · have h₁ : Memory.read ((k, v) :: rest) k' = none := below fun e he => by
            rcases List.mem_cons.mp he with rfl | he
            · exact hlt
            · exact Nat.lt_trans hlt (hc.1 e he)
          have := hr k'
          rw [h₁] at this
          simp [Memory.read] at this
      subst hkk
      have hv : v = v' := by simpa [Memory.read] using hr k
      subst hv
      refine congrArg _ (ih hc.2 hd.2 fun a => ?_)
      by_cases ha : k = a
      · subst ha
        rw [below fun e he => hc.1 e he, below fun e he => hd.1 e he]
      · simpa [Memory.read, ha] using hr a

/-! ### The queue's operations keep the canonical form -/

variable {m n : Nat}

theorem Queue.store_eq {b : Byte} {q q' : Queue (m + 1)} (h : q.store b = some q') :
    ∃ a, q.storeSlot = some a ∧
      q' = { q_head := some (q.q_head.getD 0), q_tail := some (nextSlot a),
             q_slot := q.q_slot.write a.val b } := by
  unfold Queue.store at h
  split at h
  · cases h
  · rename_i a ha
    exact ⟨a, ha, (Option.some.inj h).symm⟩

theorem Queue.store_slots_wf {b : Byte} {q q' : Queue (m + 1)} (h : q.store b = some q')
    (hw : q.q_slot.wf) : q'.q_slot.wf := by
  obtain ⟨a, -, rfl⟩ := Queue.store_eq h
  exact Memory.write_wf hw a.val b

/-- A store changes one slot: the one `storeSlot` names. -/
theorem Queue.store_read {b : Byte} {q q' : Queue (m + 1)} (h : q.store b = some q') {a : Nat}
    (ha : q.storeSlot.map Fin.val ≠ some a) : q'.q_slot.read a = q.q_slot.read a := by
  obtain ⟨w, hw, rfl⟩ := Queue.store_eq h
  exact Memory.read_write_other _ _ (by simpa [hw, eq_comm] using ha)

@[simp] theorem Queue.advance_slots (h : Fin n) (q : Queue n) : (q.advance h).q_slot = q.q_slot := by
  unfold Queue.advance
  split <;> rfl

@[simp] theorem Queue.clear_slots (q : Queue n) : q.clear.q_slot = q.q_slot := rfl

@[simp] theorem Queue.clear_head (q : Queue n) : q.clear.q_head = none := rfl

@[simp] theorem Queue.clear_tail (q : Queue n) : q.clear.q_tail = none := rfl

@[simp] theorem nextSlot_val (i : Fin n) : (nextSlot i).val = (i.val + 1) % n := rfl

end Sys2Proof.Machine
end

