-- ==== Sys2Proof/Laws/State.lean ====
section
/-! SUPPORT. One lemma per field for each named update of State (Machine/Ops.lean): what the update writes and
that it leaves every other field. Each is true by unfolding, so no later proof unfolds a record. -/

namespace Sys2Proof.Machine

/-! ### `raiseCond`: `raise` (R135) -/

@[simp] theorem raiseCond_armed (c : ErrorCondition) (s : State) :
    (raiseCond c s).armed = s.armed := rfl
@[simp] theorem raiseCond_rx_pos (c : ErrorCondition) (s : State) :
    (raiseCond c s).rx_pos = s.rx_pos := rfl
@[simp] theorem raiseCond_rx_byte (c : ErrorCondition) (s : State) :
    (raiseCond c s).rx_byte = s.rx_byte := rfl
@[simp] theorem raiseCond_rx_par (c : ErrorCondition) (s : State) :
    (raiseCond c s).rx_par = s.rx_par := rfl
@[simp] theorem raiseCond_rx_bad (c : ErrorCondition) (s : State) :
    (raiseCond c s).rx_bad = s.rx_bad := rfl
@[simp] theorem raiseCond_rx_last (c : ErrorCondition) (s : State) :
    (raiseCond c s).rx_last = s.rx_last := rfl
@[simp] theorem raiseCond_tx_pos (c : ErrorCondition) (s : State) :
    (raiseCond c s).tx_pos = s.tx_pos := rfl
@[simp] theorem raiseCond_pend (c : ErrorCondition) (s : State) :
    (raiseCond c s).pend = s.pend := rfl
@[simp] theorem raiseCond_tx_par (c : ErrorCondition) (s : State) :
    (raiseCond c s).tx_par = s.tx_par := rfl
@[simp] theorem raiseCond_ack_lvl (c : ErrorCondition) (s : State) :
    (raiseCond c s).ack_lvl = s.ack_lvl := rfl
@[simp] theorem raiseCond_inh_cnt (c : ErrorCondition) (s : State) :
    (raiseCond c s).inh_cnt = s.inh_cnt := rfl
@[simp] theorem raiseCond_wr_cnt (c : ErrorCondition) (s : State) :
    (raiseCond c s).wr_cnt = s.wr_cnt := rfl
@[simp] theorem raiseCond_st_cnt (c : ErrorCondition) (s : State) :
    (raiseCond c s).st_cnt = s.st_cnt := rfl
@[simp] theorem raiseCond_queue (c : ErrorCondition) (s : State) :
    (raiseCond c s).queue = s.queue := rfl
@[simp] theorem raiseCond_data_drv (c : ErrorCondition) (s : State) :
    (raiseCond c s).data_drv = s.data_drv := rfl
@[simp] theorem raiseCond_clk_drv (c : ErrorCondition) (s : State) :
    (raiseCond c s).clk_drv = s.clk_drv := rfl
@[simp] theorem raiseCond_timer_cfg (c : ErrorCondition) (s : State) :
    (raiseCond c s).timer_cfg = s.timer_cfg := rfl
@[simp] theorem raiseCond_read_ok (c : ErrorCondition) (s : State) :
    (raiseCond c s).read_ok = s.read_ok := rfl
@[simp] theorem raiseCond_read_byte (c : ErrorCondition) (s : State) :
    (raiseCond c s).read_byte = s.read_byte := rfl
@[simp] theorem raiseCond_raised (c : ErrorCondition) (s : State) :
    (raiseCond c s).raised = s.raised ++ [c] := rfl
@[simp] theorem raiseCond_trace (c : ErrorCondition) (s : State) :
    (raiseCond c s).trace = s.trace := rfl

/-! ### `requestSend`: the request to transmit (R124) -/

@[simp] theorem requestSend_armed (b : Byte) (s : State) : (requestSend b s).armed = s.armed := rfl
@[simp] theorem requestSend_rx_pos (b : Byte) (s : State) :
    (requestSend b s).rx_pos = s.rx_pos := rfl
@[simp] theorem requestSend_rx_byte (b : Byte) (s : State) :
    (requestSend b s).rx_byte = s.rx_byte := rfl
@[simp] theorem requestSend_rx_par (b : Byte) (s : State) :
    (requestSend b s).rx_par = s.rx_par := rfl
@[simp] theorem requestSend_rx_bad (b : Byte) (s : State) :
    (requestSend b s).rx_bad = s.rx_bad := rfl
@[simp] theorem requestSend_rx_last (b : Byte) (s : State) :
    (requestSend b s).rx_last = s.rx_last := rfl
@[simp] theorem requestSend_tx_pos (b : Byte) (s : State) :
    (requestSend b s).tx_pos = s.tx_pos := rfl
@[simp] theorem requestSend_pend (b : Byte) (s : State) : (requestSend b s).pend = b := rfl
@[simp] theorem requestSend_tx_par (b : Byte) (s : State) :
    (requestSend b s).tx_par = s.tx_par := rfl
@[simp] theorem requestSend_ack_lvl (b : Byte) (s : State) :
    (requestSend b s).ack_lvl = s.ack_lvl := rfl
@[simp] theorem requestSend_inh_cnt (b : Byte) (s : State) :
    (requestSend b s).inh_cnt = s.inh_cnt := rfl
@[simp] theorem requestSend_wr_cnt (b : Byte) (s : State) :
    (requestSend b s).wr_cnt = Config.writeTicks := rfl
@[simp] theorem requestSend_st_cnt (b : Byte) (s : State) :
    (requestSend b s).st_cnt = s.st_cnt := rfl
@[simp] theorem requestSend_queue (b : Byte) (s : State) : (requestSend b s).queue = s.queue := rfl
@[simp] theorem requestSend_data_drv (b : Byte) (s : State) :
    (requestSend b s).data_drv = s.data_drv := rfl
@[simp] theorem requestSend_clk_drv (b : Byte) (s : State) :
    (requestSend b s).clk_drv = s.clk_drv := rfl
@[simp] theorem requestSend_timer_cfg (b : Byte) (s : State) :
    (requestSend b s).timer_cfg = s.timer_cfg := rfl
@[simp] theorem requestSend_read_ok (b : Byte) (s : State) :
    (requestSend b s).read_ok = s.read_ok := rfl
@[simp] theorem requestSend_read_byte (b : Byte) (s : State) :
    (requestSend b s).read_byte = s.read_byte := rfl
@[simp] theorem requestSend_raised (b : Byte) (s : State) :
    (requestSend b s).raised = s.raised := rfl
@[simp] theorem requestSend_trace (b : Byte) (s : State) : (requestSend b s).trace = s.trace := rfl

/-! ### `releaseData`: release-data-high (R152) -/

@[simp] theorem releaseData_armed (s : State) : (releaseData s).armed = s.armed := rfl
@[simp] theorem releaseData_rx_pos (s : State) : (releaseData s).rx_pos = s.rx_pos := rfl
@[simp] theorem releaseData_rx_byte (s : State) : (releaseData s).rx_byte = s.rx_byte := rfl
@[simp] theorem releaseData_rx_par (s : State) : (releaseData s).rx_par = s.rx_par := rfl
@[simp] theorem releaseData_rx_bad (s : State) : (releaseData s).rx_bad = s.rx_bad := rfl
@[simp] theorem releaseData_rx_last (s : State) : (releaseData s).rx_last = s.rx_last := rfl
@[simp] theorem releaseData_tx_pos (s : State) : (releaseData s).tx_pos = s.tx_pos := rfl
@[simp] theorem releaseData_pend (s : State) : (releaseData s).pend = s.pend := rfl
@[simp] theorem releaseData_tx_par (s : State) : (releaseData s).tx_par = s.tx_par := rfl
@[simp] theorem releaseData_ack_lvl (s : State) : (releaseData s).ack_lvl = s.ack_lvl := rfl
@[simp] theorem releaseData_inh_cnt (s : State) : (releaseData s).inh_cnt = s.inh_cnt := rfl
@[simp] theorem releaseData_wr_cnt (s : State) : (releaseData s).wr_cnt = s.wr_cnt := rfl
@[simp] theorem releaseData_st_cnt (s : State) : (releaseData s).st_cnt = s.st_cnt := rfl
@[simp] theorem releaseData_queue (s : State) : (releaseData s).queue = s.queue := rfl
@[simp] theorem releaseData_data_drv (s : State) : (releaseData s).data_drv = .rel := rfl
@[simp] theorem releaseData_clk_drv (s : State) : (releaseData s).clk_drv = s.clk_drv := rfl
@[simp] theorem releaseData_timer_cfg (s : State) : (releaseData s).timer_cfg = s.timer_cfg := rfl
@[simp] theorem releaseData_read_ok (s : State) : (releaseData s).read_ok = s.read_ok := rfl
@[simp] theorem releaseData_read_byte (s : State) : (releaseData s).read_byte = s.read_byte := rfl
@[simp] theorem releaseData_raised (s : State) : (releaseData s).raised = s.raised := rfl
@[simp] theorem releaseData_trace (s : State) : (releaseData s).trace = s.trace := rfl

/-! ### `driveDataLow`: drive-data-low (R152) -/

@[simp] theorem driveDataLow_armed (s : State) : (driveDataLow s).armed = s.armed := rfl
@[simp] theorem driveDataLow_rx_pos (s : State) : (driveDataLow s).rx_pos = s.rx_pos := rfl
@[simp] theorem driveDataLow_rx_byte (s : State) : (driveDataLow s).rx_byte = s.rx_byte := rfl
@[simp] theorem driveDataLow_rx_par (s : State) : (driveDataLow s).rx_par = s.rx_par := rfl
@[simp] theorem driveDataLow_rx_bad (s : State) : (driveDataLow s).rx_bad = s.rx_bad := rfl
@[simp] theorem driveDataLow_rx_last (s : State) : (driveDataLow s).rx_last = s.rx_last := rfl
@[simp] theorem driveDataLow_tx_pos (s : State) : (driveDataLow s).tx_pos = s.tx_pos := rfl
@[simp] theorem driveDataLow_pend (s : State) : (driveDataLow s).pend = s.pend := rfl
@[simp] theorem driveDataLow_tx_par (s : State) : (driveDataLow s).tx_par = s.tx_par := rfl
@[simp] theorem driveDataLow_ack_lvl (s : State) : (driveDataLow s).ack_lvl = s.ack_lvl := rfl
@[simp] theorem driveDataLow_inh_cnt (s : State) : (driveDataLow s).inh_cnt = s.inh_cnt := rfl
@[simp] theorem driveDataLow_wr_cnt (s : State) : (driveDataLow s).wr_cnt = s.wr_cnt := rfl
@[simp] theorem driveDataLow_st_cnt (s : State) : (driveDataLow s).st_cnt = s.st_cnt := rfl
@[simp] theorem driveDataLow_queue (s : State) : (driveDataLow s).queue = s.queue := rfl
@[simp] theorem driveDataLow_data_drv (s : State) : (driveDataLow s).data_drv = .low := rfl
@[simp] theorem driveDataLow_clk_drv (s : State) : (driveDataLow s).clk_drv = s.clk_drv := rfl
@[simp] theorem driveDataLow_timer_cfg (s : State) : (driveDataLow s).timer_cfg = s.timer_cfg := rfl
@[simp] theorem driveDataLow_read_ok (s : State) : (driveDataLow s).read_ok = s.read_ok := rfl
@[simp] theorem driveDataLow_read_byte (s : State) : (driveDataLow s).read_byte = s.read_byte := rfl
@[simp] theorem driveDataLow_raised (s : State) : (driveDataLow s).raised = s.raised := rfl
@[simp] theorem driveDataLow_trace (s : State) : (driveDataLow s).trace = s.trace := rfl

/-! ### `releaseClock`: release-clock-high (R152) -/

@[simp] theorem releaseClock_armed (s : State) : (releaseClock s).armed = s.armed := rfl
@[simp] theorem releaseClock_rx_pos (s : State) : (releaseClock s).rx_pos = s.rx_pos := rfl
@[simp] theorem releaseClock_rx_byte (s : State) : (releaseClock s).rx_byte = s.rx_byte := rfl
@[simp] theorem releaseClock_rx_par (s : State) : (releaseClock s).rx_par = s.rx_par := rfl
@[simp] theorem releaseClock_rx_bad (s : State) : (releaseClock s).rx_bad = s.rx_bad := rfl
@[simp] theorem releaseClock_rx_last (s : State) : (releaseClock s).rx_last = s.rx_last := rfl
@[simp] theorem releaseClock_tx_pos (s : State) : (releaseClock s).tx_pos = s.tx_pos := rfl
@[simp] theorem releaseClock_pend (s : State) : (releaseClock s).pend = s.pend := rfl
@[simp] theorem releaseClock_tx_par (s : State) : (releaseClock s).tx_par = s.tx_par := rfl
@[simp] theorem releaseClock_ack_lvl (s : State) : (releaseClock s).ack_lvl = s.ack_lvl := rfl
@[simp] theorem releaseClock_inh_cnt (s : State) : (releaseClock s).inh_cnt = s.inh_cnt := rfl
@[simp] theorem releaseClock_wr_cnt (s : State) : (releaseClock s).wr_cnt = s.wr_cnt := rfl
@[simp] theorem releaseClock_st_cnt (s : State) : (releaseClock s).st_cnt = s.st_cnt := rfl
@[simp] theorem releaseClock_queue (s : State) : (releaseClock s).queue = s.queue := rfl
@[simp] theorem releaseClock_data_drv (s : State) : (releaseClock s).data_drv = s.data_drv := rfl
@[simp] theorem releaseClock_clk_drv (s : State) : (releaseClock s).clk_drv = .rel := rfl
@[simp] theorem releaseClock_timer_cfg (s : State) : (releaseClock s).timer_cfg = s.timer_cfg := rfl
@[simp] theorem releaseClock_read_ok (s : State) : (releaseClock s).read_ok = s.read_ok := rfl
@[simp] theorem releaseClock_read_byte (s : State) : (releaseClock s).read_byte = s.read_byte := rfl
@[simp] theorem releaseClock_raised (s : State) : (releaseClock s).raised = s.raised := rfl
@[simp] theorem releaseClock_trace (s : State) : (releaseClock s).trace = s.trace := rfl

/-! ### `driveClockLow`: drive-clock-low (R152) -/

@[simp] theorem driveClockLow_armed (s : State) : (driveClockLow s).armed = s.armed := rfl
@[simp] theorem driveClockLow_rx_pos (s : State) : (driveClockLow s).rx_pos = s.rx_pos := rfl
@[simp] theorem driveClockLow_rx_byte (s : State) : (driveClockLow s).rx_byte = s.rx_byte := rfl
@[simp] theorem driveClockLow_rx_par (s : State) : (driveClockLow s).rx_par = s.rx_par := rfl
@[simp] theorem driveClockLow_rx_bad (s : State) : (driveClockLow s).rx_bad = s.rx_bad := rfl
@[simp] theorem driveClockLow_rx_last (s : State) : (driveClockLow s).rx_last = s.rx_last := rfl
@[simp] theorem driveClockLow_tx_pos (s : State) : (driveClockLow s).tx_pos = s.tx_pos := rfl
@[simp] theorem driveClockLow_pend (s : State) : (driveClockLow s).pend = s.pend := rfl
@[simp] theorem driveClockLow_tx_par (s : State) : (driveClockLow s).tx_par = s.tx_par := rfl
@[simp] theorem driveClockLow_ack_lvl (s : State) : (driveClockLow s).ack_lvl = s.ack_lvl := rfl
@[simp] theorem driveClockLow_inh_cnt (s : State) : (driveClockLow s).inh_cnt = s.inh_cnt := rfl
@[simp] theorem driveClockLow_wr_cnt (s : State) : (driveClockLow s).wr_cnt = s.wr_cnt := rfl
@[simp] theorem driveClockLow_st_cnt (s : State) : (driveClockLow s).st_cnt = s.st_cnt := rfl
@[simp] theorem driveClockLow_queue (s : State) : (driveClockLow s).queue = s.queue := rfl
@[simp] theorem driveClockLow_data_drv (s : State) : (driveClockLow s).data_drv = s.data_drv := rfl
@[simp] theorem driveClockLow_clk_drv (s : State) : (driveClockLow s).clk_drv = .low := rfl
@[simp] theorem driveClockLow_timer_cfg (s : State) :
    (driveClockLow s).timer_cfg = s.timer_cfg := rfl
@[simp] theorem driveClockLow_read_ok (s : State) : (driveClockLow s).read_ok = s.read_ok := rfl
@[simp] theorem driveClockLow_read_byte (s : State) :
    (driveClockLow s).read_byte = s.read_byte := rfl
@[simp] theorem driveClockLow_raised (s : State) : (driveClockLow s).raised = s.raised := rfl
@[simp] theorem driveClockLow_trace (s : State) : (driveClockLow s).trace = s.trace := rfl

/-! ### `takeFrameError`: the entry into error handling (R147) -/

@[simp] theorem takeFrameError_armed (s : State) : (takeFrameError s).armed = s.armed := rfl
@[simp] theorem takeFrameError_rx_pos (s : State) : (takeFrameError s).rx_pos = 0 := rfl
@[simp] theorem takeFrameError_rx_byte (s : State) : (takeFrameError s).rx_byte = s.rx_byte := rfl
@[simp] theorem takeFrameError_rx_par (s : State) : (takeFrameError s).rx_par = s.rx_par := rfl
@[simp] theorem takeFrameError_rx_bad (s : State) : (takeFrameError s).rx_bad = s.rx_bad := rfl
@[simp] theorem takeFrameError_rx_last (s : State) : (takeFrameError s).rx_last = s.rx_last := rfl
@[simp] theorem takeFrameError_tx_pos (s : State) : (takeFrameError s).tx_pos = s.tx_pos := rfl
@[simp] theorem takeFrameError_pend (s : State) : (takeFrameError s).pend = Config.errByte := rfl
@[simp] theorem takeFrameError_tx_par (s : State) : (takeFrameError s).tx_par = s.tx_par := rfl
@[simp] theorem takeFrameError_ack_lvl (s : State) : (takeFrameError s).ack_lvl = s.ack_lvl := rfl
@[simp] theorem takeFrameError_inh_cnt (s : State) : (takeFrameError s).inh_cnt = s.inh_cnt := rfl
@[simp] theorem takeFrameError_wr_cnt (s : State) :
    (takeFrameError s).wr_cnt = Config.writeTicks := rfl
@[simp] theorem takeFrameError_st_cnt (s : State) : (takeFrameError s).st_cnt = s.st_cnt := rfl
@[simp] theorem takeFrameError_queue (s : State) : (takeFrameError s).queue = s.queue := rfl
@[simp] theorem takeFrameError_data_drv (s : State) :
    (takeFrameError s).data_drv = s.data_drv := rfl
@[simp] theorem takeFrameError_clk_drv (s : State) : (takeFrameError s).clk_drv = s.clk_drv := rfl
@[simp] theorem takeFrameError_timer_cfg (s : State) :
    (takeFrameError s).timer_cfg = s.timer_cfg := rfl
@[simp] theorem takeFrameError_read_ok (s : State) : (takeFrameError s).read_ok = s.read_ok := rfl
@[simp] theorem takeFrameError_read_byte (s : State) :
    (takeFrameError s).read_byte = s.read_byte := rfl
@[simp] theorem takeFrameError_raised (s : State) :
    (takeFrameError s).raised = s.raised ++ [.frameError] := rfl
@[simp] theorem takeFrameError_trace (s : State) : (takeFrameError s).trace = s.trace := rfl

/-! ### `endSettle`: the end of a write sequence (R105, R148) -/

@[simp] theorem endSettle_armed (s : State) : (endSettle s).armed = .dec := rfl
@[simp] theorem endSettle_rx_pos (s : State) : (endSettle s).rx_pos = s.rx_pos := rfl
@[simp] theorem endSettle_rx_byte (s : State) : (endSettle s).rx_byte = s.rx_byte := rfl
@[simp] theorem endSettle_rx_par (s : State) : (endSettle s).rx_par = s.rx_par := rfl
@[simp] theorem endSettle_rx_bad (s : State) : (endSettle s).rx_bad = s.rx_bad := rfl
@[simp] theorem endSettle_rx_last (s : State) : (endSettle s).rx_last = s.rx_last := rfl
@[simp] theorem endSettle_tx_pos (s : State) : (endSettle s).tx_pos = s.tx_pos := rfl
@[simp] theorem endSettle_pend (s : State) : (endSettle s).pend = s.pend := rfl
@[simp] theorem endSettle_tx_par (s : State) : (endSettle s).tx_par = s.tx_par := rfl
@[simp] theorem endSettle_ack_lvl (s : State) : (endSettle s).ack_lvl = s.ack_lvl := rfl
@[simp] theorem endSettle_inh_cnt (s : State) : (endSettle s).inh_cnt = s.inh_cnt := rfl
@[simp] theorem endSettle_wr_cnt (s : State) : (endSettle s).wr_cnt = s.wr_cnt := rfl
@[simp] theorem endSettle_st_cnt (s : State) : (endSettle s).st_cnt = s.st_cnt - 1#8 := rfl
@[simp] theorem endSettle_queue (s : State) : (endSettle s).queue = s.queue := rfl
@[simp] theorem endSettle_data_drv (s : State) : (endSettle s).data_drv = s.data_drv := rfl
@[simp] theorem endSettle_clk_drv (s : State) : (endSettle s).clk_drv = .rel := rfl
@[simp] theorem endSettle_timer_cfg (s : State) : (endSettle s).timer_cfg = s.timer_cfg := rfl
@[simp] theorem endSettle_read_ok (s : State) : (endSettle s).read_ok = s.read_ok := rfl
@[simp] theorem endSettle_read_byte (s : State) : (endSettle s).read_byte = s.read_byte := rfl
@[simp] theorem endSettle_raised (s : State) : (endSettle s).raised = s.raised := rfl
@[simp] theorem endSettle_trace (s : State) : (endSettle s).trace = s.trace := rfl

end Sys2Proof.Machine
end

