-- ==== Sys2Proof/Laws/Outcomes.lean ====
section
/-! SUPPORT. What each shared operation can do, said once: if it answers a next state, which one it is.
Later proofs cite these and do not unfold the operations. -/

namespace Sys2Proof.Machine

/-! ### Sequencing and selection -/

@[simp] theorem andThen_of_next (s : State) (k : State → Result) : andThen (.next s) k = k s := rfl

theorem andThen_eq_next {r : Result} {k : State → Result} {t : State} (h : andThen r k = .next t) :
    ∃ u, r = .next u ∧ k u = .next t := by
  cases r with
  | next u => exact ⟨u, rfl, h⟩
  | fault f => cases h
  | refused f => cases h

theorem andThen_eq_fault {r : Result} {k : State → Result} {f : Fault} (h : andThen r k = .fault f) :
    r = .fault f ∨ ∃ u, r = .next u ∧ k u = .fault f := by
  cases r with
  | next u => exact .inr ⟨u, rfl, h⟩
  | fault g => exact .inl h
  | refused g => cases h

theorem andThen_assoc (r : Result) (k l : State → Result) :
    andThen (andThen r k) l = andThen r fun s => andThen (k s) l := by
  cases r <;> rfl

@[simp] theorem selected_true (m : String) (r : Result) : selected true m r = r := rfl

@[simp] theorem selected_false (m : String) (r : Result) :
    selected false m r = .refused (.notSelected m) := rfl

theorem selected_eq_next {sel : Bool} {m : String} {r : Result} {t : State}
    (h : selected sel m r = .next t) : sel = true ∧ r = .next t := by
  cases sel with
  | true => exact ⟨rfl, h⟩
  | false => cases h

theorem selected_eq_fault {sel : Bool} {m : String} {r : Result} {f : Fault}
    (h : selected sel m r = .fault f) : sel = true ∧ r = .fault f := by
  cases sel with
  | true => exact ⟨rfl, h⟩
  | false => cases h

/-! ### Counters -/

theorem countersZero_iff (s : State) :
    countersZero s = true ↔ s.inh_cnt = 0#8 ∧ s.wr_cnt = 0#8 ∧ s.st_cnt = 0#8 := by
  simp [countersZero]

/-! ### Put and read -/

theorem putStore_eq_next {b : Byte} {s t : State} (h : putStore b s = .next t) :
    ∃ q, s.queue.store b = some q ∧ t = { s with queue := q } := by
  unfold putStore at h
  split at h
  · rename_i q hq
    exact ⟨q, hq, (Host.Outcome.next.inj h).symm⟩
  · cases h

/-- A put drops the byte on a full queue and stores it otherwise. -/
theorem qPut_eq_next {b : Byte} {s t : State} (h : qPut b s = .next t) :
    (s.queue.isFull = true ∧ t = putDrop s) ∨
      (s.queue.isFull = false ∧ ∃ q, s.queue.store b = some q ∧ t = { s with queue := q }) := by
  unfold qPut at h
  split at h
  · rename_i hf
    exact .inl ⟨hf, (Host.Outcome.next.inj h).symm⟩
  · rename_i hf
    exact .inr ⟨by simpa using hf, putStore_eq_next h⟩

theorem readByte_eq_next {a : Fin Config.queueCapacity} {s t : State} (h : readByte a s = .next t) :
    ∃ b, s.queue.q_slot.read a.val = some b ∧
      t = { s with read_ok := true, read_byte := some b, queue := s.queue.advance a } := by
  unfold readByte at h
  split at h
  · rename_i b hb
    exact ⟨b, hb, (Host.Outcome.next.inj h).symm⟩
  · cases h

/-- A READ answers empty on an empty queue and takes the byte at `q_head` otherwise. -/
theorem qRead_eq_next {s t : State} (h : qRead s = .next t) :
    (s.queue.q_head = none ∧ t = readEmpty s) ∨
      ∃ a b, s.queue.q_head = some a ∧ s.queue.q_slot.read a.val = some b ∧
        t = { s with read_ok := true, read_byte := some b, queue := s.queue.advance a } := by
  unfold qRead at h
  split at h
  · rename_i hn
    exact .inl ⟨hn, (Host.Outcome.next.inj h).symm⟩
  · rename_i a ha
    obtain ⟨b, hb, ht⟩ := readByte_eq_next h
    exact .inr ⟨a, b, ha, hb, ht⟩

/-! ### The Decoder -/

/-- The end of a frame: the error path, or a put; either way the position returns to 0. -/
theorem stopBit_eq_next {d : Bool} {s t : State} (h : stopBit d s = .next t) :
    (badAfterStop d s.rx_bad = true ∧
        t = takeFrameError { s with rx_bad := true }) ∨
      (badAfterStop d s.rx_bad = false ∧
        ∃ u, qPut s.rx_byte { s with rx_bad := false } = .next u ∧ t = { u with rx_pos := 0 }) := by
  cases hb : badAfterStop d s.rx_bad with
  | true =>
    simp only [stopBit, hb, if_true] at h
    exact .inl ⟨rfl, (Host.Outcome.next.inj h).symm⟩
  | false =>
    simp only [stopBit, hb, endValid] at h
    obtain ⟨u, hu, ht⟩ := andThen_eq_next h
    exact .inr ⟨rfl, u, hu, (Host.Outcome.next.inj ht).symm⟩

/-- What one position's action can do. -/
theorem positionAction_eq_next {d : Bool} {s t : State} (h : positionAction d s = .next t) :
    (s.rx_pos.val = 0 ∧ t = startBit d s) ∨
      (1 ≤ s.rx_pos.val ∧ s.rx_pos.val ≤ 8 ∧ t = dataBit d s) ∨
      (s.rx_pos.val = 9 ∧ t = parityBit d s) ∨
      (s.rx_pos.val = 10 ∧ stopBit d s = .next t) := by
  unfold positionAction at h
  split at h
  · rename_i hp
    exact .inl ⟨hp, (Host.Outcome.next.inj h).symm⟩
  · split at h
    · exact .inr (.inl ⟨by omega, by omega, (Host.Outcome.next.inj h).symm⟩)
    · split at h
      · rename_i hp
        exact .inr (.inr (.inl ⟨hp, (Host.Outcome.next.inj h).symm⟩))
      · exact .inr (.inr (.inr ⟨by omega, h⟩))

/-- An edge the Decoder handles is ignored, or goes through the staleness guard to its position. -/
theorem decEdge_eq_next {d : Bool} {now : Nat} {s t : State} (h : decEdge d now s = .next t) :
    (countersZero s = false ∧ t = s) ∨
      (countersZero s = true ∧ positionAction d (stalenessGuard now s) = .next t) := by
  unfold decEdge at h
  split at h
  · rename_i hc
    exact .inr ⟨hc, h⟩
  · rename_i hc
    exact .inl ⟨by simpa using hc, (Host.Outcome.next.inj h).symm⟩

@[simp] theorem stalenessGuard_rx_last (now : Nat) (s : State) :
    (stalenessGuard now s).rx_last = now := by
  unfold stalenessGuard
  split <;> rfl

@[simp] theorem stalenessGuard_rx_pos (now : Nat) (s : State) :
    (stalenessGuard now s).rx_pos = guardedPos now s := by
  unfold stalenessGuard guardedPos
  split <;> rfl

@[simp] theorem stalenessGuard_raised (now : Nat) (s : State) :
    (stalenessGuard now s).raised = if isStale now s then s.raised ++ [.desync] else s.raised := by
  unfold stalenessGuard
  split <;> rfl

/-- The staleness guard writes the position, the time stamp and the record, nothing else (R76). -/
theorem stalenessGuard_eq (now : Nat) (s : State) :
    stalenessGuard now s =
      { s with
        rx_pos := guardedPos now s
        rx_last := now
        raised := if isStale now s then s.raised ++ [.desync] else s.raised } := by
  unfold stalenessGuard guardedPos
  split <;> rfl

/-- All that one Decoder invocation can do: nothing; a position before the last; or the end of a frame,
which is the error path, a dropped byte or a stored one. -/
theorem decEdge_cases {d : Bool} {now : Nat} {s t : State} (h : decEdge d now s = .next t) :
    let raised' := if isStale now s then s.raised ++ [ErrorCondition.desync] else s.raised
    (countersZero s = false ∧ t = s) ∨
    (countersZero s = true ∧ (guardedPos now s).val ≠ 10 ∧ ∃ k byte par bad,
      t = { s with
            rx_pos := k, rx_byte := byte, rx_par := par, rx_bad := bad, rx_last := now,
            raised := raised' }) ∨
    (countersZero s = true ∧ (guardedPos now s).val = 10 ∧ (s.rx_bad = true ∨ d = false) ∧
      t = { s with
            rx_pos := 0, rx_bad := true, rx_last := now, raised := raised' ++ [.frameError],
            pend := Config.errByte, wr_cnt := Config.writeTicks }) ∨
    (countersZero s = true ∧ (guardedPos now s).val = 10 ∧ ¬(s.rx_bad = true ∨ d = false) ∧
      s.queue.isFull = true ∧
      t = { s with
            rx_pos := 0, rx_bad := false, rx_last := now, raised := raised' ++ [.queueOverflow] }) ∨
    (countersZero s = true ∧ (guardedPos now s).val = 10 ∧ ¬(s.rx_bad = true ∨ d = false) ∧
      s.queue.isFull = false ∧ ∃ q, s.queue.store s.rx_byte = some q ∧
      t = { s with
            rx_pos := 0, rx_bad := false, rx_last := now, raised := raised', queue := q }) := by
  intro raised'
  rcases decEdge_eq_next h with h | ⟨hc, h⟩
  · exact .inl h
  · rw [stalenessGuard_eq] at h
    rcases positionAction_eq_next h with ⟨hp, rfl⟩ | ⟨-, hp, rfl⟩ | ⟨hp, rfl⟩ | ⟨hp, h⟩ <;>
      simp only at hp
    · exact .inr (.inl ⟨hc, by omega, _, _, _, _, rfl⟩)
    · exact .inr (.inl ⟨hc, by omega, _, _, _, _, rfl⟩)
    · exact .inr (.inl ⟨hc, by omega, _, _, _, _, rfl⟩)
    · have bad_iff : badAfterStop d s.rx_bad = true ↔ s.rx_bad = true ∨ d = false := by
        cases d <;> simp [badAfterStop]
      rcases stopBit_eq_next h with ⟨hb, rfl⟩ | ⟨hb, u, hu, rfl⟩
      · exact .inr (.inr (.inl ⟨hc, hp, bad_iff.mp hb, rfl⟩))
      · have hb' : ¬(s.rx_bad = true ∨ d = false) := fun hn => by
          rw [← bad_iff] at hn
          exact Bool.false_ne_true (hb.symm.trans hn)
        rcases qPut_eq_next hu with ⟨hf, rfl⟩ | ⟨hf, q, hq, rfl⟩
        · exact .inr (.inr (.inr (.inl ⟨hc, hp, hb', hf, rfl⟩)))
        · exact .inr (.inr (.inr (.inr ⟨hc, hp, hb', hf, q, hq, rfl⟩)))

/-! ### The Encoder -/

/-- All that one Encoder invocation can do: nothing while settling; a position before the last, which
writes the position, the parity, the byte and the data line; or the acknowledgment. -/
theorem encEdge_cases (d : Bool) (s : State) :
    (s.st_cnt ≠ 0#8 ∧ encEdge d s = s) ∨
    (s.st_cnt = 0#8 ∧ s.tx_pos.val ≠ 10 ∧ ∃ k par byte drv,
      encEdge d s = { s with tx_pos := k, tx_par := par, pend := byte, data_drv := drv }) ∨
    (s.st_cnt = 0#8 ∧ s.tx_pos.val = 10 ∧
      encEdge d s =
        { s with
          ack_lvl := d, st_cnt := Config.settleTicks, clk_drv := .low, tx_pos := 0,
          raised := if d then s.raised ++ [.noAck] else s.raised }) := by
  unfold encEdge
  by_cases h : s.st_cnt = 0#8
  · rw [if_neg (by simp [h])]
    unfold encAction
    split
    · exact .inr (.inl ⟨h, by omega, _, _, _, _, rfl⟩)
    · split
      · exact .inr (.inl ⟨h, by omega, _, _, _, _, rfl⟩)
      · split
        · exact .inr (.inl ⟨h, by omega, _, _, _, _, rfl⟩)
        · refine .inr (.inr ⟨h, by omega, ?_⟩)
          cases d <;> rfl
  · exact .inl ⟨h, if_pos h⟩

/-! ### The Timing Sequencer -/

/-- A counter that is neither 0 nor 1 is above 1. -/
theorem one_lt_counter {x : Config.Counter} (h₀ : x ≠ 0#8) (h₁ : x ≠ 1#8) : 1#8 < x := by
  rw [BitVec.lt_def]
  have h₀' : x.toNat ≠ 0 := fun e => h₀ (BitVec.eq_of_toNat_eq e)
  have h₁' : x.toNat ≠ 1 := fun e => h₁ (BitVec.eq_of_toNat_eq e)
  show 1 < x.toNat
  omega

/-- The inhibit block writes its counter and the clock line (R101). -/
theorem inhBlock_eq (s : State) :
    inhBlock s =
      { s with
        inh_cnt := if s.inh_cnt = 0#8 then 0#8 else s.inh_cnt - 1#8
        clk_drv := if s.inh_cnt = 1#8 then .rel else if s.inh_cnt ≠ 0#8 then .low else s.clk_drv } := by
  unfold inhBlock
  by_cases h₀ : s.inh_cnt = 0#8
  · cases s
    simp_all
  · by_cases h₁ : s.inh_cnt = 1#8
    · simp [h₁, inhEnd, releaseClock]
    · simp [h₀, h₁, one_lt_counter h₀ h₁, inhHold, driveClockLow]

/-- The write block writes its counter and the clock line, and on its last tick arms the Encoder at
position 0 with the start bit on the line (R102, R103). -/
theorem wrBlock_eq (s : State) :
    wrBlock s =
      { s with
        wr_cnt := if s.wr_cnt = 0#8 then 0#8 else s.wr_cnt - 1#8
        armed := if s.wr_cnt = 1#8 then .enc else s.armed
        rx_pos := if s.wr_cnt = 1#8 then 0 else s.rx_pos
        tx_pos := if s.wr_cnt = 1#8 then 0 else s.tx_pos
        data_drv := if s.wr_cnt = 1#8 then .low else s.data_drv
        clk_drv := if s.wr_cnt = 1#8 then .rel else if s.wr_cnt ≠ 0#8 then .low else s.clk_drv } := by
  unfold wrBlock
  by_cases h₀ : s.wr_cnt = 0#8
  · cases s
    simp_all
  · by_cases h₁ : s.wr_cnt = 1#8
    · simp [h₁, wrEnd, releaseClock, driveDataLow]
    · simp [h₀, h₁, one_lt_counter h₀ h₁, wrHold, driveClockLow]

/-- The settle block writes its counter and the clock line, and on its last tick arms the Decoder (R104,
R105). -/
theorem stBlock_eq (c : Bool) (s : State) :
    stBlock c s =
      { s with
        st_cnt := if s.st_cnt = 0#8 then 0#8 else s.st_cnt - 1#8
        armed := if s.st_cnt = 1#8 then .dec else s.armed
        clk_drv :=
          if s.st_cnt = 1#8 then .rel else if s.st_cnt ≠ 0#8 ∧ c = true then .low else s.clk_drv } := by
  unfold stBlock
  by_cases h₀ : s.st_cnt = 0#8
  · cases s
    simp_all
  · by_cases h₁ : s.st_cnt = 1#8
    · simp [h₁, endSettle, releaseClock]
    · cases c <;> simp [h₀, h₁, one_lt_counter h₀ h₁, stHold, driveClockLow]

/-! ### The dispatch of an EDGE -/

theorem execEdge_eq_next {d : Bool} {now : Nat} {s t : State} (h : execEdge d now s = .next t) :
    (s.armed = .dec ∧ decEdge d now s = .next t) ∨ (s.armed = .enc ∧ t = encEdge d s) := by
  unfold execEdge at h
  split at h
  · rename_i ha
    exact .inl ⟨ha, h⟩
  · rename_i ha
    exact .inr ⟨ha, (Host.Outcome.next.inj h).symm⟩

/-- A property that every EDGE keeps is kept by a run of EDGEs, and so by the frames. -/
theorem runEdges_keeps {P : State → Prop}
    (hE : ∀ d now s t, P s → execEdge d now s = .next t → P t) :
    ∀ es s t, P s → runEdges es s = .next t → P t := by
  intro es
  induction es with
  | nil =>
    intro s t hs h
    cases h
    exact hs
  | cons e rest ih =>
    intro s t hs h
    obtain ⟨u, hu, ht⟩ := andThen_eq_next h
    exact ih u t (hE _ _ s u hs hu) ht

theorem clockOut_keeps {P : State → Prop}
    (hE : ∀ d now s t, P s → execEdge d now s = .next t → P t) :
    ∀ n now gap s t, P s → clockOut n now gap s = .next t → P t := by
  intro n
  induction n with
  | zero =>
    intro now gap s t hs h
    cases h
    exact hs
  | succ n ih =>
    intro now gap s t hs h
    obtain ⟨u, hu, ht⟩ := andThen_eq_next h
    exact ih _ _ u t (hE _ _ s u hs hu) ht

/-- A property that every TICK keeps is kept by any number of them. -/
theorem ticks_keeps {P : State → Prop} (hT : ∀ c s, P s → P (tickAll c s)) :
    ∀ n s, P s → P (ticks n s) := by
  intro n
  induction n with
  | zero => exact fun _ hs => hs
  | succ n ih => exact fun s hs => ih _ (hT _ s hs)

/-- The write sequence of TXFRAME keeps what SEND, TICK and EDGE keep. -/
theorem execTxframe_keeps {P : State → Prop} {a : Bool} {b : Byte} {now gap : Nat} {s t : State}
    (hE : ∀ d now s t, P s → execEdge d now s = .next t → P t)
    (hT : ∀ c s, P s → P (tickAll c s)) (hs : P (requestSend b s))
    (h : execTxframe a b now gap s = .next t) : P t := by
  unfold execTxframe at h
  obtain ⟨u, hu, ht⟩ := andThen_eq_next h
  unfold txClock at hu
  obtain ⟨v, hv, hu⟩ := andThen_eq_next hu
  rw [← Host.Outcome.next.inj ht]
  exact ticks_keeps hT _ _ (hE _ _ v u
    (clockOut_keeps hE _ _ _ _ v (ticks_keeps hT _ _ hs) hv) hu)

/-! ### The whole machine -/

theorem runOps_append (xs ys : List Instr) (s : State) :
    runOps (xs ++ ys) s = andThen (runOps xs s) (runOps ys) := by
  induction xs generalizing s with
  | nil => rfl
  | cons i rest ih =>
    simp only [List.cons_append, runOps, andThen_assoc]
    congr 1
    funext t
    exact ih t

/-- A DRAIN that ends is some READs, at most `n`, of which the last returns empty. -/
theorem drainFrom_eq_next {n : Nat} {s t : State} (h : drainFrom n s = .next t) :
    t.read_ok = false ∧ ∃ k < n, runOps (List.replicate (k + 1) .read) s = .next t := by
  induction n generalizing s with
  | zero => cases h
  | succ n ih =>
    obtain ⟨u, hu, h⟩ := andThen_eq_next h
    have hu' : exec .read s = .next u := hu
    split at h
    · obtain ⟨ht, k, hk, hr⟩ := ih h
      exact ⟨ht, k + 1, by omega, by rw [List.replicate_succ, runOps, hu', andThen_of_next, hr]⟩
    · rename_i hok
      cases h
      exact ⟨by simpa using hok, 0, by omega, by simp [runOps, hu']⟩

/-- A property that every READ keeps is kept by a DRAIN. -/
theorem drainFrom_keeps {P : State → Prop} (hR : ∀ s t, P s → execRead s = .next t → P t) :
    ∀ n s t, P s → drainFrom n s = .next t → P t := by
  intro n
  induction n with
  | zero =>
    intro s t _ h
    cases h
  | succ n ih =>
    intro s t hs h
    obtain ⟨u, hu, h⟩ := andThen_eq_next h
    split at h
    · exact ih u t (hR s u hs hu) h
    · exact hR s t hs (hu.trans h)

/-- A step with a next state either had nothing to do or performed the operation of its line. -/
theorem step_eq_next {s t : State} (h : step s = .next t) :
    (s.trace = [] ∧ t = s) ∨
      ∃ line rest i, s.trace = line :: rest ∧ decode line = .ok i ∧
        exec i { s with trace := rest } = .next t := by
  unfold step at h
  split at h
  · rename_i hn
    exact .inl ⟨hn, (Host.Outcome.next.inj h).symm⟩
  · rename_i line rest hl
    split at h
    · rename_i i hi
      exact .inr ⟨line, rest, i, hl, hi, h⟩
    · cases h

theorem step_eq_fault {s : State} {f : Fault} (h : step s = .fault f) :
    ∃ line rest i, s.trace = line :: rest ∧ decode line = .ok i ∧
      exec i { s with trace := rest } = .fault f := by
  unfold step at h
  split at h
  · cases h
  · rename_i line rest hl
    split at h
    · rename_i i hi
      exact ⟨line, rest, i, hl, hi, h⟩
    · cases h

end Sys2Proof.Machine
end

