-- ==== Sys2Proof/Laws/PerInstr.lean ====
section
/-! SUPPORT. Statements about the operations as syntax, proved operation by operation: the line that
requests an operation is canonical (30_encoding.md R63). -/

namespace Sys2Proof.Laws.Encoding

/-- The line of an operation, if it has one, is canonical: the bits it does not use are 0 and only EDGE
carries a time (R63). A sub-operation has no line (R64). -/
def Statement (i : Instr) : Prop := ∀ line, encode i = some line → line.canonical = true

/-- It is enough to look at the line itself. -/
theorem statement_of_line {i : Instr} {l : TraceLine} (h : encode i = some l)
    (hl : l.canonical = true) : Statement i := by
  intro line hline
  rw [h] at hline
  rw [← Option.some.inj hline]
  exact hl

/-- An operation without a line has nothing to show. -/
theorem statement_of_none {i : Instr} (h : encode i = none) : Statement i := by
  intro line hline
  rw [h] at hline
  cases hline

theorem reset : Statement .reset := statement_of_line rfl (by decide)

theorem init : Statement .init := statement_of_line rfl (by decide)

theorem edge (d : Bool) (now : Nat) : Statement (.edge d now) := by
  cases d <;> exact statement_of_line rfl rfl

theorem tick (c : Bool) : Statement (.tick c) := by
  cases c <;> exact statement_of_line rfl rfl

theorem send (b : Byte) : Statement (.send b) := by
  refine statement_of_line rfl ?_
  revert b
  decide

theorem read : Statement .read := statement_of_line rfl (by decide)

theorem inhibit : Statement .inhibit := statement_of_line rfl (by decide)

theorem decIgnore : Statement .decIgnore := statement_of_none rfl

theorem decStart (d : Bool) (now : Nat) : Statement (.decStart d now) := statement_of_none rfl

theorem decData (d : Bool) (now : Nat) : Statement (.decData d now) := statement_of_none rfl

theorem decParity (d : Bool) (now : Nat) : Statement (.decParity d now) := statement_of_none rfl

theorem decStop (d : Bool) (now : Nat) : Statement (.decStop d now) := statement_of_none rfl

theorem encIgnore : Statement .encIgnore := statement_of_none rfl

theorem encData : Statement .encData := statement_of_none rfl

theorem encParity : Statement .encParity := statement_of_none rfl

theorem encStop : Statement .encStop := statement_of_none rfl

theorem encAck (d : Bool) : Statement (.encAck d) := statement_of_none rfl

theorem tickInhHold : Statement .tickInhHold := statement_of_none rfl

theorem tickInhEnd : Statement .tickInhEnd := statement_of_none rfl

theorem tickWrHold : Statement .tickWrHold := statement_of_none rfl

theorem tickWrEnd : Statement .tickWrEnd := statement_of_none rfl

theorem tickStHold (c : Bool) : Statement (.tickStHold c) := statement_of_none rfl

theorem tickStEnd : Statement .tickStEnd := statement_of_none rfl

theorem tickNop : Statement .tickNop := statement_of_none rfl

theorem qReadEmpty : Statement .qReadEmpty := statement_of_none rfl

theorem qReadByte : Statement .qReadByte := statement_of_none rfl

theorem qPutStore (b : Byte) : Statement (.qPutStore b) := statement_of_none rfl

theorem qPutDrop (b : Byte) : Statement (.qPutDrop b) := statement_of_none rfl

theorem qClear : Statement .qClear := statement_of_none rfl

theorem rxframe (f : Frame11) (now : Nat) (gap : Nat) : Statement (.rxframe f now gap) := statement_of_line rfl rfl

theorem txframe (a : Bool) (b : Byte) (now : Nat) (gap : Nat) : Statement (.txframe a b now gap) := statement_of_line rfl rfl

end Sys2Proof.Laws.Encoding
end

