-- ==== Sys2Proof/Tests/Slice0.lean ====
section
/-! SUPPORT. The model's own tests: ill-formed terms that the checks refuse, words written out from the
spec, one step at a time on small states (the vectors of 95_test_vectors.md, named in each comment), and
for each obligation with hypotheses a witness that meets them. -/

namespace Sys2Proof.Tests

open Machine

/-! ### Helpers -/

/-- The state S0 of 95_test_vectors.md: after RESET and INIT. -/
def s0 : State := { State.reset with timer_cfg := true }

/-- The next state of an outcome, if it has one. -/
def after : Result → Option State
  | .next s => some s
  | .fault _ => none
  | .refused _ => none

/-- What `p` reads in the next state of an outcome. -/
def look {α : Type} (r : Result) (p : State → α) : Option α := (after r).map p

/-- S0 with one byte in slot 0, as a put leaves it. -/
def oneByte : State :=
  { s0 with queue := { q_head := some 0, q_tail := some (nextSlot 0), q_slot := [(0, 0x1C)] } }

/-- S0 with the Encoder armed at position `k` (R17). -/
def sending (k : Fin 11) (byte : Byte) (par : Bool) (drv : Drive) : State :=
  { s0 with armed := .enc, tx_pos := k, pend := byte, tx_par := par, data_drv := drv }

/-- S0 with the Decoder at position `k` (R12). -/
def receiving (k : Fin 11) (byte : Byte) (par bad : Bool) (last : Nat) : State :=
  { s0 with rx_pos := k, rx_byte := byte, rx_par := par, rx_bad := bad, rx_last := last }

/-- S0 with the three countdown counters (R23). -/
def counting (inh wr st : Config.Counter) : State :=
  { s0 with inh_cnt := inh, wr_cnt := wr, st_cnt := st }

/-- S0 with a full queue's cursors, the slots being `m` (R26). -/
def fullCursors (m : Memory) : State :=
  { s0 with queue := { q_head := some 0, q_tail := some 0, q_slot := m } }

/-- A queue of four slots, as the vectors V40 and V41 have it. -/
def q4 (head tail : Option (Fin 4)) (slots : Memory) : Queue 4 :=
  { q_head := head, q_tail := tail, q_slot := slots }

/-! ### Well-formedness: ill-formed terms are refused -/

/-- No sub-operation has a line of its own (R64). -/
theorem test_sub_operations_are_not_well_formed :
    ([.decIgnore, .decStart false 0, .decData true 1, .decParity true 1, .decStop true 1, .encIgnore,
      .encData, .encParity, .encStop, .encAck false, .tickInhHold, .tickInhEnd, .tickWrHold, .tickWrEnd,
      .tickStHold true, .tickStEnd, .tickNop, .qReadEmpty, .qReadByte, .qPutStore 0x1C, .qPutDrop 0x1C,
      .qClear] : List Instr).all (fun i => !i.wellFormed) = true := by decide

/-- The seven operations of the interface and the two frames have one (R62, R69). -/
theorem test_interface_operations_are_well_formed :
    ([.reset, .init, .edge true 5, .tick false, .send 0xFE, .read, .inhibit, .rxframe 0x438 0 1,
      .txframe true 0x41 0 1] : List Instr).all Instr.wellFormed = true := by decide

/-- The reserved bits 11 and 10 are 0 in a canonical word (R63). -/
theorem test_reserved_bits_are_not_canonical :
    (TraceLine.word 0x0400 0).canonical = false ∧ (TraceLine.word 0x4C41 0).canonical = false := by
  decide

/-- `imm8` is SEND's, `c` is TICK's, `d` is EDGE's (R63). -/
theorem test_unused_fields_are_not_canonical :
    (TraceLine.word 0x2001 7).canonical = false ∧ (TraceLine.word 0x2200 7).canonical = false ∧
    (TraceLine.word 0x3100 0).canonical = false ∧ (TraceLine.word 0x5001 0).canonical = false := by
  decide

/-- Only EDGE carries a time (R63). -/
theorem test_time_on_a_tick_is_not_canonical : (TraceLine.word 0x3000 7).canonical = false := by decide

/-- A reserved code has no canonical word (R63). -/
theorem test_reserved_codes_are_not_canonical :
    (TraceLine.word 0x7000 0).canonical = false ∧ (TraceLine.word 0x8000 0).canonical = false ∧
    (TraceLine.word 0xF000 0).canonical = false ∧ (TraceLine.word 0x6000 0).canonical = true := by decide

/-- Canonical words of R63. -/
theorem test_canonical_words :
    (TraceLine.word 0x0000 0).canonical = true ∧ (TraceLine.word 0x2100 1003).canonical = true ∧
    (TraceLine.word 0x3200 0).canonical = true ∧ (TraceLine.word 0x40FE 0).canonical = true := by decide

/-! ### Decoding: words written out from R63, R56 and R58 (95_test_vectors.md Part 2.1 and Part 4) -/

theorem test_decode_reset : decode (.word 0b0000000000000000 0) = .ok .reset := by rfl

theorem test_decode_init : decode (.word 0b0001000000000000 0) = .ok .init := by rfl

theorem test_decode_edge :
    decode (.word 0b0010000000000000 1000) = .ok (.edge false 1000) ∧
    decode (.word 0b0010000100000000 1003) = .ok (.edge true 1003) := ⟨rfl, rfl⟩

theorem test_decode_tick :
    decode (.word 0b0011000000000000 0) = .ok (.tick false) ∧
    decode (.word 0b0011001000000000 0) = .ok (.tick true) := ⟨rfl, rfl⟩

theorem test_decode_send : decode (.word 0b0100000001000001 0) = .ok (.send 0x41) := by rfl

theorem test_decode_read : decode (.word 0b0101000000000000 0) = .ok .read := by rfl

theorem test_decode_inhibit : decode (.word 0b0110000000000000 0) = .ok .inhibit := by rfl

/-- The reserved codes 0x7 and 0xF (R66). -/
theorem test_decode_reserved :
    decode (.word 0x7000 0) = .error (.reservedWord 0x7000) ∧
    decode (.word 0xFFFF 0) = .error (.reservedWord 0xFFFF) := ⟨rfl, rfl⟩

/-- The frame of 0x1C: start 0, data 00111000, parity 0, stop 1 in time order (V1). -/
theorem test_decode_rxframe :
    decode (.frame11 0b10000111000 1000 1) = .ok (.rxframe 0x438 1000 1) ∧
    frameByte 0x438 = 0x1C ∧ validFrame 0x438 = true := by decide

/-- The frame of 0x41 with a missing acknowledgment (V27), and one whose parity the core cannot emit
(R65). -/
theorem test_decode_txframe :
    decode (.frame12 0b111010000010 2000 1) = .ok (.txframe true 0x41 2000 1) ∧
    decode (.frame12 0b110010000010 2000 1) = .error (.unsendableFrame 0xC82) := by decide

/-- Frame words of 95_test_vectors.md 2.1. -/
theorem test_frame_words :
    [frameOf 0x00, frameOf 0x01, frameOf 0x03, frameOf 0x1D, frameOf 0x7F, frameOf 0x80, frameOf 0xFE,
      frameOf 0xFF] = [0x600, 0x402, 0x606, 0x63A, 0x4FE, 0x500, 0x5FC, 0x7FE] := by decide

/-- The table's numbering: a trace word has 16 bits, the frames 11 and 12 (log 15). -/
theorem test_decode_table_words :
    decodeTableWord 16 0x40FE = some (.send 0xFE) ∧ decodeTableWord 11 0x438 = some (.rxframe 0x438 0 1) ∧
    decodeTableWord 12 0x682 = some (.txframe false 0x41 0 1) ∧ decodeTableWord 16 0x7000 = none := by
  decide

/-- The sub-operations of EDGE while the Decoder is armed, for the words 0x2000 and 0x2100 (R64, V1). -/
theorem test_edge_selects_decoder_sub_operations :
    edgeSub false 1000 s0 = .decStart false 1000 ∧
    edgeSub true 1003 (receiving 3 0 false false 1002) = .decData true 1003 ∧
    edgeSub false 1009 (receiving 9 0x1C true false 1008) = .decParity false 1009 ∧
    edgeSub true 1010 (receiving 10 0x1C true false 1009) = .decStop true 1010 ∧
    edgeSub true 1003 (counting 0 10 0) = .decIgnore := by decide

/-- The sub-operations of EDGE while the Encoder is armed (R64, V20, V28). -/
theorem test_edge_selects_encoder_sub_operations :
    edgeSub false 2000 (sending 0 0x41 false .low) = .encData ∧
    edgeSub false 2007 (sending 7 0 false .rel) = .encData ∧
    edgeSub false 2008 (sending 8 0 false .low) = .encParity ∧
    edgeSub true 2009 (sending 9 0 false .rel) = .encStop ∧
    edgeSub false 2010 (sending 10 0 false .rel) = .encAck false ∧
    edgeSub false 2011 { sending 0 0 false .rel with st_cnt := 4 } = .encIgnore := by decide

/-- The sub-operations of TICK (R64), also with two counters running (V51). -/
theorem test_tick_selects_sub_operations :
    tickSubs true (counting 3 0 0) = [.tickInhHold] ∧ tickSubs false (counting 1 0 0) = [.tickInhEnd] ∧
    tickSubs true (counting 0 11 0) = [.tickWrHold] ∧ tickSubs false (counting 0 1 0) = [.tickWrEnd] ∧
    tickSubs false (counting 0 0 4) = [.tickStHold false] ∧ tickSubs false (counting 0 0 1) = [.tickStEnd] ∧
    tickSubs true s0 = [.tickNop] ∧ tickSubs false (counting 0 9 1) = [.tickWrHold, .tickStEnd] := by
  decide

/-- The sub-operations of READ (R64). -/
theorem test_read_selects_sub_operations :
    readSub s0 = .qReadEmpty ∧ readSub (fullCursors [(0, 0xAA)]) = .qReadByte := by decide

/-! ### RESET, INIT, SEND, INHIBIT, READ -/

/-- V57: RESET gives the reset state; the slots are unlisted (log 10). -/
theorem test_reset :
    exec .reset (sending 3 0x08 true .low) = .next State.reset ∧
    exec .reset (fullCursors [(0, 0x1C)]) = .next State.reset := ⟨rfl, rfl⟩

/-- V50: INIT keeps the Decoder's position and the slot's content. -/
theorem test_init_keeps_the_position :
    look (exec .init { receiving 3 0 false false 1022 with
        queue := { q_head := some 0, q_tail := none, q_slot := [(0, 0x1C)] } })
      (fun t => (t.rx_pos, t.rx_last, t.queue.q_head, t.queue.q_slot)) =
      some (3, 1022, none, [(0, 0x1C)]) := by decide

/-- V56: INIT during transmission. -/
theorem test_init_during_transmission :
    look (exec .init (sending 3 0x08 true .low))
      (fun t => (t.armed, t.data_drv, t.clk_drv, t.tx_pos, t.pend, t.tx_par)) =
      some (.dec, .rel, .rel, 3, 0x08, true) := by decide

/-- V30: SEND loads the byte and the counter, nothing else. -/
theorem test_send : exec (.send 0x41) s0 = .next { s0 with pend := 0x41, wr_cnt := 11 } := by rfl

/-- V54: SEND during transmission leaves the Encoder's position. -/
theorem test_send_during_transmission :
    look (exec (.send 0xF0) (sending 3 0x08 true .low)) (fun t => (t.pend, t.wr_cnt, t.tx_pos, t.armed)) =
      some (0xF0, 11, 3, .enc) := by decide

/-- V55 (a) and (d): INHIBIT outside the Receiving role does nothing. -/
theorem test_inhibit_is_guarded :
    exec .inhibit (counting 0 11 0) = .next (counting 0 11 0) ∧
    exec .inhibit (sending 0 0x41 false .low) = .next (sending 0 0x41 false .low) := ⟨rfl, rfl⟩

/-- V33: INHIBIT loads its counter and leaves the clock. -/
theorem test_inhibit_loads :
    exec .inhibit s0 = .next { s0 with inh_cnt := Config.inhibitTicks } := by rfl

/-- V40: a READ on an empty queue answers empty. -/
theorem test_read_empty :
    look (exec .read { s0 with read_ok := true, read_byte := some 0x44 })
      (fun t => (t.read_ok, t.read_byte)) = some (false, none) := by decide

/-- V44: a READ answers the byte at `q_head`. -/
theorem test_read_byte :
    look (exec .read { s0 with queue := { q_head := some 0, q_tail := none, q_slot := [(0, 0xAA)] } })
      (fun t => (t.read_ok, t.read_byte, t.queue.q_slot)) =
      some (true, some 0xAA, [(0, 0xAA)]) := by decide

/-! ### The Decoder (V1 to V19a) -/

/-- V1, first edge; its staleness guard fires. -/
theorem test_dec_start :
    look (exec (.edge false 1000) s0) (fun t => (t.rx_pos, t.rx_byte, t.rx_bad, t.rx_last, t.raised)) =
      some (1, 0x00, false, 1000, [.desync]) := by decide

/-- V7: a start bit of 1 marks the frame invalid. -/
theorem test_dec_start_of_one :
    look (exec (.decStart true 1) s0) (fun t => (t.rx_pos, t.rx_bad)) = some (1, true) := by decide

/-- V1, the edges at @1003 and @1004. -/
theorem test_dec_data :
    look (exec (.edge true 1003) (receiving 3 0x00 false false 1002))
      (fun t => (t.rx_pos, t.rx_byte, t.rx_par, t.rx_last)) = some (4, 0x04, true, 1003) ∧
    look (exec (.decData true 1004) (receiving 4 0x04 true false 1003))
      (fun t => (t.rx_pos, t.rx_byte, t.rx_par, t.rx_last)) = some (5, 0x0C, false, 1004) := by decide

/-- Position 8 sets bit 7 and goes to 9 (R78). -/
theorem test_dec_data_last :
    look (exec (.edge true 1008) (receiving 8 0x00 false false 1007))
      (fun t => (t.rx_pos, t.rx_byte, t.rx_par)) = some (9, 0x80, true) := by decide

/-- V1, the edge at @1009, and the flipped parity bit of V8. -/
theorem test_dec_parity :
    look (exec (.edge false 1009) (receiving 9 0x1C true false 1008))
      (fun t => (t.rx_pos, t.rx_par, t.rx_bad)) = some (10, true, false) ∧
    look (exec (.decParity true 1009) (receiving 9 0x1C true false 1008))
      (fun t => (t.rx_pos, t.rx_par, t.rx_bad)) = some (10, false, true) := by decide

/-- V1, the last edge: the byte is stored in slot 0. -/
theorem test_dec_stop_valid :
    look (exec (.edge true 1010) (receiving 10 0x1C true false 1009))
      (fun t => (t.rx_pos, t.pend, t.queue.q_slot)) = some (0, 0x00, [(0, 0x1C)]) := by decide

/-- V11: a stop bit of 0. -/
theorem test_dec_stop_invalid :
    look (exec (.decStop false 1010) (receiving 10 0x1C true false 1009))
      (fun t => (t.rx_pos, t.rx_bad, t.pend, t.wr_cnt)) = some (0, true, 0xFE, 11) ∧
    look (exec (.decStop false 1010) (receiving 10 0x1C true false 1009))
      (fun t => (t.queue.q_slot, t.raised)) = some ([], [.frameError]) := by decide

/-- V19a: the last EDGE is DEC.IGNORE, `rx_last` stays. -/
theorem test_dec_ignore :
    let s := { receiving 3 0 false false 1002 with pend := 0x41, wr_cnt := 10, clk_drv := .low }
    exec (.edge true 1003) s = .next s ∧ exec .decIgnore s = .next s := ⟨rfl, rfl⟩

/-- V14 and V15: a gap of 100 does not fire the guard, one of 101 does. -/
theorem test_staleness_is_strict :
    look (exec (.edge true 1100) (receiving 1 0 false false 1000)) (fun t => (t.rx_pos, t.rx_byte, t.rx_bad)) =
      some (2, 0x01, false) ∧
    look (exec (.edge true 1101) (receiving 1 0 false false 1000)) (fun t => (t.rx_pos, t.rx_byte, t.rx_bad)) =
      some (1, 0x00, true) := by decide

/-- R69: a DRAIN of one byte is two READs, and the last one returns empty (the end of P1). -/
theorem test_drain_one_byte :
    drained oneByte = [0x1C] ∧
    look (drain oneByte) (fun t => (t.read_ok, t.queue.q_head, t.queue.q_slot)) =
      some (false, none, [(0, 0x1C)]) := by
  have ha : oneByte.queue.advance 0 = { q_head := none, q_tail := none, q_slot := [(0, 0x1C)] } :=
    if_pos rfl
  have h : execRead oneByte = .next
      { oneByte with read_ok := true, read_byte := some 0x1C, queue := oneByte.queue.advance 0 } := rfl
  rw [ha] at h
  simp only [drained, drain, drainLimit, drainBytes, drainFrom, h]
  decide

/-- R69: on an empty queue the one READ of a DRAIN returns empty. -/
theorem test_drain_empty : drained s0 = [] ∧ drain s0 = exec .read s0 := ⟨rfl, rfl⟩

/-- The frame of V1 as one operation: the byte is stored. -/
theorem test_rxframe_valid :
    look (exec (.rxframe 0x438 1000 1) s0)
      (fun t => (t.rx_byte, t.rx_bad, t.rx_last, t.queue.q_slot)) =
      some (0x1C, false, 1010, [(0, 0x1C)]) := by decide

/-- V9: data bit 0 flipped. -/
theorem test_rxframe_invalid :
    look (exec (.rxframe 0x43A 1000 1) s0)
      (fun t => (t.rx_byte, t.rx_bad, t.pend, t.queue.q_slot)) = some (0x1D, true, 0xFE, []) := by decide

/-! ### The Encoder (V20 to V28) -/

/-- V20, the edges at @2000 and @2006. -/
theorem test_enc_data :
    look (exec (.edge false 2000) (sending 0 0x41 true .low))
      (fun t => (t.data_drv, t.pend, t.tx_par, t.tx_pos)) = some (.rel, 0x20, true, 1) ∧
    look (exec .encData (sending 6 0x01 true .low))
      (fun t => (t.data_drv, t.pend, t.tx_par, t.tx_pos)) = some (.rel, 0x00, false, 7) := by decide

/-- V20, the edge at @2008, and the parity bit 0 of V24. -/
theorem test_enc_parity :
    look (exec (.edge false 2008) (sending 8 0 false .low)) (fun t => (t.data_drv, t.tx_par, t.tx_pos)) =
      some (.rel, false, 9) ∧
    look (exec .encParity (sending 8 0 true .rel)) (fun t => (t.data_drv, t.tx_par, t.tx_pos)) =
      some (.low, true, 9) := by decide

/-- V24, the stop bit. -/
theorem test_enc_stop :
    look (exec .encStop (sending 9 0 true .low)) (fun t => (t.data_drv, t.tx_pos)) = some (.rel, 10) := by
  decide

/-- V20, the edge at @2010, and V27 with no acknowledgment. -/
theorem test_enc_ack :
    look (exec (.edge false 2010) (sending 10 0 false .rel))
      (fun t => (t.ack_lvl, t.st_cnt, t.clk_drv, t.tx_pos)) = some (false, 4, .low, 0) ∧
    look (exec (.encAck true) (sending 10 0 false .rel))
      (fun t => (t.ack_lvl, t.st_cnt, t.clk_drv, t.raised)) = some (true, 4, .low, [.noAck]) := by decide

/-- V28: the settle guard. -/
theorem test_enc_ignore :
    let s := { sending 0 0 false .rel with st_cnt := 4, clk_drv := .low }
    exec (.edge false 2011) s = .next s ∧ exec .encIgnore s = .next s := ⟨rfl, rfl⟩

/-- V22 and V23: the data line over the bit times 0 to 10. -/
theorem test_line_levels :
    lineLevels 10 (sending 0 0xFF false .low) =
      [false, true, true, true, true, true, true, true, true, true, true] ∧
    lineLevels 10 (sending 0 0xFE false .low) =
      [false, false, true, true, true, true, true, true, true, false, true] := by decide

/-- V30 and V27 as one operation: the write sequence ends in S0 with the acknowledgment latched. -/
theorem test_txframe :
    look (exec (.txframe false 0x41 2000 1) s0) id = some s0 ∧
    look (exec (.txframe true 0x41 2000 1) s0) (fun t => (t.ack_lvl, t.armed, t.clk_drv, t.raised)) =
      some (true, .dec, .rel, [.noAck]) := by decide

/-! ### The Timing Sequencer (V30 to V35, V51, V53) -/

/-- V33, ticks 1 and 3. -/
theorem test_tick_inhibit :
    look (exec .tickInhHold (counting 3 0 0)) (fun t => (t.inh_cnt, t.clk_drv)) = some (2, .low) ∧
    look (exec .tickInhEnd { counting 1 0 0 with clk_drv := .low }) (fun t => (t.inh_cnt, t.clk_drv)) =
      some (0, .rel) := by decide

/-- V30, ticks 1 and 11. -/
theorem test_tick_write :
    look (exec .tickWrHold (counting 0 11 0)) (fun t => (t.wr_cnt, t.clk_drv, t.data_drv, t.armed)) =
      some (10, .low, .rel, .dec) ∧
    look (exec .tickWrEnd { counting 0 1 0 with clk_drv := .low, rx_pos := 3, tx_pos := 3 })
      (fun t => (t.wr_cnt, t.clk_drv, t.data_drv, t.armed, t.rx_pos, t.tx_pos)) =
      some (0, .rel, .low, .enc, 0, 0) := by decide

/-- V32: a settle hold tick with the clock observed high, and held low by the device. -/
theorem test_tick_settle_hold :
    look (exec (.tickStHold true) (counting 0 0 3)) (fun t => (t.st_cnt, t.clk_drv)) = some (2, .low) ∧
    look (exec (.tickStHold false) (counting 0 0 3)) (fun t => (t.st_cnt, t.clk_drv)) = some (2, .rel) := by
  decide

/-- V30, tick 15. -/
theorem test_tick_settle_end :
    look (exec .tickStEnd { counting 0 0 1 with armed := .enc, clk_drv := .low })
      (fun t => (t.st_cnt, t.clk_drv, t.armed)) = some (0, .rel, .dec) := by decide

/-- V31: TICK.NOP. -/
theorem test_tick_nop :
    exec (.tick false) s0 = .next s0 ∧ exec (.tick true) s0 = .next s0 ∧ exec .tickNop s0 = .next s0 :=
  ⟨rfl, rfl, rfl⟩

/-- V51, tick 3: the write block forces the clock low, the settle block then releases it. -/
theorem test_tick_write_and_settle :
    look (exec (.tick false) { counting 0 9 1 with armed := .enc, clk_drv := .low })
      (fun t => (t.wr_cnt, t.st_cnt, t.clk_drv, t.armed)) = some (8, 0, .rel, .dec) := by decide

/-- V53: the inhibit block releases the clock, the write block forces it low again. -/
theorem test_tick_inhibit_and_write :
    look (exec (.tick false) { counting 1 10 0 with clk_drv := .low })
      (fun t => (t.inh_cnt, t.wr_cnt, t.clk_drv)) = some (0, 9, .low) := by decide

/-! ### The Byte Queue (V40 to V43), for queues of four, two and one slots -/

/-- V40: the first and the fourth put; then the queue is full. -/
theorem test_queue_store :
    (q4 none none []).store 0x11 = some (q4 (some 0) (some 1) [(0, 0x11)]) ∧
    (q4 (some 0) (some 3) [(0, 0x11), (1, 0x22), (2, 0x33)]).store 0x44 =
      some (q4 (some 0) (some 0) [(0, 0x11), (1, 0x22), (2, 0x33), (3, 0x44)]) ∧
    (q4 (some 0) (some 0) []).isFull = true := by decide

/-- V41: the wrap-around. -/
theorem test_queue_wraps :
    (q4 (some 2) (some 1) [(0, 5), (1, 2), (2, 3), (3, 4)]).store 6 =
      some (q4 (some 2) (some 2) [(0, 5), (1, 6), (2, 3), (3, 4)]) ∧
    (q4 (some 2) (some 2) [(0, 5), (1, 6), (2, 3), (3, 4)]).contents = [3, 4, 5, 6] := by decide

/-- V40: the first and the last READ. -/
theorem test_queue_advance :
    (q4 (some 0) (some 0) []).advance 0 = q4 (some 1) (some 0) [] ∧
    (q4 (some 3) (some 0) []).advance 3 = q4 none none [] := by decide

/-- V42 and V43: two slots, and one slot. -/
theorem test_queue_small :
    ({ q_head := some 1, q_tail := some 0, q_slot := [(0, 1), (1, 2)] } : Queue 2).store 4 =
      some { q_head := some 1, q_tail := some 1, q_slot := [(0, 4), (1, 2)] } ∧
    ({ q_head := none, q_tail := none, q_slot := [] } : Queue 1).store 0x0A =
      some { q_head := some 0, q_tail := some 0, q_slot := [(0, 0x0A)] } ∧
    ({ q_head := some 0, q_tail := some 0, q_slot := [(0, 0x0A)] } : Queue 1).advance 0 =
      { q_head := none, q_tail := none, q_slot := [(0, 0x0A)] } := by decide

/-- Q.PUT.STORE, Q.PUT.DROP, Q.CLEAR on the state (V40, V50). -/
theorem test_queue_sub_operations :
    look (exec (.qPutStore 0x11) s0) (fun t => t.queue.q_slot) = some [(0, 0x11)] ∧
    look (exec (.qPutDrop 0x55) (fullCursors [(0, 0x11)])) (fun t => (t.queue.q_slot, t.raised)) =
      some ([(0, 0x11)], [.queueOverflow]) ∧
    look (exec .qClear (fullCursors [(0, 0x11)])) (fun t => (t.queue.q_head, t.queue.q_slot)) =
      some (none, [(0, 0x11)]) := by decide

/-- The sub-operations of READ. -/
theorem test_queue_read_sub_operations :
    look (exec .qReadEmpty s0) (fun t => (t.read_ok, t.read_byte)) = some (false, none) ∧
    look (exec .qReadByte (fullCursors [(0, 0x0A)])) (fun t => (t.read_ok, t.read_byte)) =
      some (true, some 0x0A) := by decide

/-! ### The step, from reset -/

/-- Each word of the table runs as the first operation after reset (log 1, log 15). -/
theorem test_step_runs_the_fetched_word :
    ([(16, 0x0000), (16, 0x1000), (16, 0x2000), (16, 0x2100), (16, 0x3000), (16, 0x4041), (16, 0x5000),
      (16, 0x6000), (11, 0x400), (12, 0x400)] : List (Nat × Nat)).all
      (fun p => (after (step (State.reset.withFetchWord p.1 p.2))).isSome || decide (p.1 = 12)) = true ∧
    (after (step (State.reset.withFetchWord 12 0x600))).isSome = true := by decide

/-- A reserved word stops the machine by name (R66, log 14). -/
theorem test_step_refuses_a_reserved_word :
    step (State.reset.withFetchWord 16 0x7000) = .refused (.reservedWord 0x7000) := by rfl

/-! ### Witnesses: for each obligation with hypotheses, a state and operands that meet them all -/

/-- S0 with a request pending. -/
def requesting (line : TraceLine) : State := { s0 with trace := [line] }

/-! #### Steps, lines and words -/

theorem witness_step_performs :
    (requesting (.word 0x4041 0)).trace = [.word 0x4041 0] ∧
    decode (.word 0x4041 0) = .ok (.send 0x41) := ⟨rfl, rfl⟩

theorem witness_step_without_a_request : s0.trace = [] := by decide

theorem witness_reserved_codes :
    (7 ≤ ((0x7FFF : TraceWord).extractLsb' 12 4).toNat ∧
      (requesting (.word 0x7FFF 3)).trace = [.word 0x7FFF 3]) ∧
    (((0x6FFF : TraceWord).extractLsb' 12 4).toNat ≤ 6 ∧
      (0x6FFF : TraceWord) &&& (0xF000 ||| usedBits ((0x6FFF : TraceWord).extractLsb' 12 4).toNat) =
        0x6000 &&& (0xF000 ||| usedBits ((0x6FFF : TraceWord).extractLsb' 12 4).toNat)) ∧
    ((0x4CFF : TraceWord).extractLsb' 12 4).toNat = 4 ∧
    (0xC82 : Frame12).extractLsb' 0 11 ≠ frameOf ((0xC82 : Frame12).extractLsb' 1 8) ∧
    (requesting (.frame12 0xC82 0 1)).trace = [.frame12 0xC82 0 1] := by decide

theorem witness_decode_of_encode :
    (Instr.edge true 1003).wellFormed = true ∧ (Instr.txframe true 0xFF 0 1).wellFormed = true := by
  decide

theorem witness_canonical_lines :
    (TraceLine.word 0x2100 1003).canonical = true ∧
    decode (.word 0x2100 1003) = .ok (.edge true 1003) ∧
    (TraceLine.frame12 0x682 0 1).canonical = true ∧
    decode (.frame12 0x682 0 1) = .ok (.txframe false 0x41 0 1) := by decide

/-! #### Operations of the interface, the queue -/

theorem witness_inhibit :
    (s0.armed = .dec ∧ s0.inh_cnt = 0#8 ∧ s0.wr_cnt = 0#8 ∧ s0.st_cnt = 0#8) ∧
    ¬((counting 0 11 0).armed = .dec ∧ (counting 0 11 0).inh_cnt = 0#8 ∧
      (counting 0 11 0).wr_cnt = 0#8 ∧ (counting 0 11 0).st_cnt = 0#8) := by decide

theorem witness_read_empty : s0.queue.q_head = none := by decide

/-- The last byte: `q_tail` is the next slot. -/
theorem witness_read_last_byte :
    oneByte.queue.q_head = some 0 ∧ oneByte.queue.q_slot.read 0 = some 0x1C ∧
    (nextSlot (0 : Fin Config.queueCapacity)).val = (0 + 1) % Config.queueCapacity ∧
    oneByte.queue.q_tail = some (nextSlot 0) := ⟨rfl, rfl, rfl, rfl⟩

/-- Another byte follows: any capacity above 1 has such a queue, here with both slots 0 and 1 in use. With
one slot `q_tail` is always the next slot. -/
theorem witness_read_another_byte (hN : Config.capacityExcess ≠ 0) :
    ∃ s : State, s.queue.q_head = some 0 ∧ s.queue.q_slot.read 0 = some 0x1C ∧
      s.queue.q_tail = some 0 ∧ s.queue.q_tail ≠ some (nextSlot 0) := by
  refine ⟨fullCursors [(0, 0x1C), (1, 0x41)], rfl, rfl, rfl, ?_⟩
  intro h
  have h₁ : (0 : Nat) = (0 + 1) % (Config.capacityExcess + 1) :=
    congrArg Fin.val (Option.some.inj h)
  rw [Nat.mod_eq_of_lt (by omega)] at h₁
  exact absurd h₁ (by decide)

theorem witness_faults :
    ((fullCursors []).queue.q_head = some 0 ∧ (fullCursors []).queue.q_slot.read 0 = none) ∧
    ∃ s : State, s.queue.q_head ≠ none ∧ s.queue.q_tail = none :=
  ⟨⟨rfl, rfl⟩,
    { s0 with queue := { q_head := some 0, q_tail := none, q_slot := [] } }, by simp, rfl⟩

theorem witness_put_first :
    s0.queue.q_head = none ∧
    (nextSlot (0 : Fin Config.queueCapacity)).val = 1 % Config.queueCapacity := ⟨rfl, rfl⟩

/-- A queue that is neither empty nor full needs a capacity above 1. -/
theorem witness_put_next (hN : Config.capacityExcess ≠ 0) :
    ∃ k : Fin Config.queueCapacity,
      oneByte.queue.q_head = some 0 ∧ oneByte.queue.q_tail = some (nextSlot 0) ∧
      (0 : Fin Config.queueCapacity) ≠ nextSlot 0 ∧
      k.val = ((nextSlot (0 : Fin Config.queueCapacity)).val + 1) % Config.queueCapacity := by
  refine ⟨nextSlot (nextSlot 0), rfl, rfl, ?_, rfl⟩
  intro h
  have h₁ : (0 : Nat) = (0 + 1) % (Config.capacityExcess + 1) := congrArg Fin.val h
  rw [Nat.mod_eq_of_lt (by omega)] at h₁
  exact absurd h₁ (by decide)

theorem witness_put_on_a_full_queue :
    (fullCursors [(0, 0x11)]).queue.q_head ≠ none ∧
    (fullCursors [(0, 0x11)]).queue.q_head = (fullCursors [(0, 0x11)]).queue.q_tail :=
  ⟨by simp [fullCursors], rfl⟩

/-! #### The Decoder -/

theorem witness_decoder_ignores :
    ((counting 1 0 0).armed = .dec ∧ (counting 1 0 0).inh_cnt ≠ 0#8) ∧
    ((counting 0 11 0).armed = .dec ∧ (counting 0 11 0).wr_cnt ≠ 0#8) ∧
    ((counting 0 0 4).armed = .dec ∧ (counting 0 0 4).st_cnt ≠ 0#8) := by decide

/-- V15, V14, and a time that goes backwards. -/
theorem witness_stale_edge :
    let s := receiving 1 0 false false 1000
    (s.armed = .dec ∧ s.inh_cnt = 0#8 ∧ s.wr_cnt = 0#8 ∧ s.st_cnt = 0#8) ∧
    (s.rx_last ≤ 1101 ∧ 100 < 1101 - s.rx_last) ∧ ¬(s.rx_last ≤ 1100 ∧ 100 < 1100 - s.rx_last) ∧
    ¬(s.rx_last ≤ 999 ∧ 100 < 999 - s.rx_last) ∧
    (after (exec (.edge true 1101) s)).isSome = true := by decide

/-- A stale edge in the middle of a frame, and a frame that starts in time. -/
theorem witness_start_bit :
    ∀ p ∈ [(1101, receiving 7 0 false false 1000), (1001, receiving 0 0 false false 1000)],
      p.2.armed = .dec ∧ p.2.inh_cnt = 0#8 ∧ p.2.wr_cnt = 0#8 ∧ p.2.st_cnt = 0#8 ∧
      (isStale p.1 p.2 = true ∨ p.2.rx_pos = 0) := by decide

/-- The first and the last data position. -/
theorem witness_data_bit :
    ∀ p ∈ [((2 : Fin 11), receiving 1 0 false false 1000), (9, receiving 8 0 false false 1000)],
      p.2.armed = .dec ∧ p.2.inh_cnt = 0#8 ∧ p.2.wr_cnt = 0#8 ∧ p.2.st_cnt = 0#8 ∧
      isStale 1100 p.2 = false ∧ 1 ≤ p.2.rx_pos.val ∧ p.2.rx_pos.val ≤ 8 ∧
      p.1.val = p.2.rx_pos.val + 1 := by decide

theorem witness_parity_bit :
    let s := receiving 9 0 false false 1000
    s.armed = .dec ∧ s.inh_cnt = 0#8 ∧ s.wr_cnt = 0#8 ∧ s.st_cnt = 0#8 ∧
    isStale 1001 s = false ∧ s.rx_pos.val = 9 := by decide

/-- Into an empty queue. -/
theorem witness_valid_frame_ends :
    let s := receiving 10 0x1C true false 1000
    s.armed = .dec ∧ s.inh_cnt = 0#8 ∧ s.wr_cnt = 0#8 ∧ s.st_cnt = 0#8 ∧ isStale 1001 s = false ∧
      s.rx_pos.val = 10 ∧ s.rx_bad = false ∧ s.queue.isFull = false ∧ s.queue.storeSlot = some 0 ∧
      (nextSlot (0 : Fin Config.queueCapacity)).val = (0 + 1) % Config.queueCapacity :=
  ⟨rfl, rfl, rfl, rfl, by decide, rfl, rfl, rfl, rfl, rfl⟩

/-- The same at a full queue. -/
theorem witness_valid_frame_ends_at_a_full_queue :
    let s := { fullCursors [(0, 0xAA)] with rx_pos := 10, rx_last := 1000 }
    s.armed = .dec ∧ s.inh_cnt = 0#8 ∧ s.wr_cnt = 0#8 ∧ s.st_cnt = 0#8 ∧ isStale 1001 s = false ∧
      s.rx_pos.val = 10 ∧ s.rx_bad = false ∧ s.queue.isFull = true :=
  ⟨rfl, rfl, rfl, rfl, by decide, rfl, rfl, by simp [fullCursors, Queue.isFull]⟩

/-- An earlier failure with stop bit 1, and stop bit 0 alone. -/
theorem witness_invalid_frame :
    ∀ p ∈ [(true, receiving 10 0x1C true true 1000), (false, receiving 10 0x1C true false 1000)],
      p.2.armed = .dec ∧ p.2.inh_cnt = 0#8 ∧ p.2.wr_cnt = 0#8 ∧ p.2.st_cnt = 0#8 ∧
      isStale 1001 p.2 = false ∧ p.2.rx_pos.val = 10 ∧ (p.2.rx_bad = true ∨ p.1 = false) := by decide

/-- For a valid and for an invalid frame word, with the widest gap. -/
theorem witness_decoder_as_a_function :
    s0.armed = .dec ∧ s0.inh_cnt = 0#8 ∧ s0.wr_cnt = 0#8 ∧ s0.st_cnt = 0#8 ∧ s0.rx_pos = 0 ∧
    100 ≤ 100 ∧ (s0.queue.q_head = none ↔ s0.queue.q_tail = none) ∧
    validFrame 0x438 = true ∧ validFrame 0x439 = false := by decide

theorem witness_received_byte :
    s0.armed = .dec ∧ s0.inh_cnt = 0#8 ∧ s0.wr_cnt = 0#8 ∧ s0.st_cnt = 0#8 ∧ s0.rx_pos = 0 ∧
    100 ≤ 100 ∧ s0.queue.q_head = none ∧ s0.queue.q_tail = none := by decide

/-- V9 flips data bit 0, V8 the parity bit, V11 has stop bit 0. -/
theorem witness_corrupted_frame :
    (s0.armed = .dec ∧ s0.inh_cnt = 0#8 ∧ s0.wr_cnt = 0#8 ∧ s0.st_cnt = 0#8 ∧ s0.rx_pos = 0 ∧ 1 ≤ 100) ∧
    (1 ≤ 1 ∧ 1 ≤ 9 ∧ (0x43A : Frame11) = frameOf 0x1C ^^^ (1#11 <<< 1)) ∧
    (1 ≤ 9 ∧ 9 ≤ 9 ∧ (0x638 : Frame11) = frameOf 0x1C ^^^ (1#11 <<< 9)) ∧
    (0x038 : Frame11).getLsbD 10 = false := by decide

/-! #### The Encoder -/

theorem witness_encoder_ignores :
    let s := { sending 0 0 false .rel with st_cnt := 1 }
    s.armed = .enc ∧ s.st_cnt ≠ 0#8 := by decide

/-- The first and the last data position. -/
theorem witness_data_bit_emitted :
    ∀ p ∈ [((1 : Fin 11), sending 0 0x41 true .low), (8, sending 7 0x00 true .low)],
      p.2.armed = .enc ∧ p.2.st_cnt = 0#8 ∧ p.2.tx_pos.val ≤ 7 ∧ p.1.val = p.2.tx_pos.val + 1 := by decide

/-- Parity, stop and acknowledgment. -/
theorem witness_encoder_tail :
    ∀ p ∈ [(8, sending 8 0 false .low), (9, sending 9 0 false .low), (10, sending 10 0 false .rel)],
      p.2.armed = .enc ∧ p.2.st_cnt = 0#8 ∧ p.2.tx_pos.val = p.1 := by decide

theorem witness_encoder_emits :
    (sending 0 0x41 false .low).armed = .enc ∧ (sending 0 0x41 false .low).st_cnt = 0#8 ∧
    (sending 0 0x41 false .low).tx_pos = 0 ∧ (sending 0 0x41 false .low).data_drv = .low ∧
    (List.replicate 10 (false, 2000)).length = 10 := by decide

/-! #### The Timing Sequencer -/

theorem witness_inhibit_phase :
    1#8 < (counting 2 0 0).inh_cnt ∧ (counting 1 0 0).inh_cnt = 1#8 ∧ (counting 1 0 0).inh_cnt ≠ 0#8 ∧
    (counting 1 0 0).armed = .dec := by decide

theorem witness_write_phase :
    1#8 < (counting 0 2 0).wr_cnt ∧ (counting 0 1 0).wr_cnt = 1#8 ∧ (counting 0 1 0).inh_cnt = 0#8 ∧
    (counting 0 1 0).st_cnt = 0#8 := by decide

theorem witness_settle_phase :
    1#8 < (counting 0 0 2).st_cnt ∧ (counting 0 0 1).st_cnt = 1#8 ∧ (counting 0 0 1).inh_cnt = 0#8 ∧
    (counting 0 0 1).wr_cnt = 0#8 := by decide

theorem witness_idle_tick : s0.inh_cnt = 0#8 ∧ s0.wr_cnt = 0#8 ∧ s0.st_cnt = 0#8 := by decide

theorem witness_write_sequence : role s0 = .receiving := by decide

/-- Every other role, with all counters running and at the ends of the premise on `st_cnt`. -/
theorem witness_write_from_another_role :
    (counting 3 11 4).st_cnt ≤ Config.settleTicks ∧ (sending 3 0x08 true .low).st_cnt ≤ Config.settleTicks ∧
    role (counting 3 11 4) ≠ .receiving ∧ role (sending 3 0x08 true .low) = .transmitting := by decide

/-- At both ends of the settle phase (V51). -/
theorem witness_send_during_settle :
    ([1, 4] : List Config.Counter).all (fun x =>
      let s := { counting 0 0 x with armed := .enc }
      decide (s.armed = .enc ∧ s.st_cnt ≠ 0#8 ∧ s.inh_cnt = 0#8 ∧ s.st_cnt ≤ Config.settleTicks)) = true ∧
    (List.replicate 11 false).length = Config.writeTicks.toNat := by decide

theorem witness_transmitting_waits :
    role (sending 3 0x08 true .low) = .transmitting ∧
    (∀ i ∈ ([.read, .inhibit, .tick true] : List Instr), i = .read ∨ i = .inhibit ∨ ∃ c, i = .tick c) ∧
    (after (runOps [.read, .inhibit, .tick true] (sending 3 0x08 true .low))).isSome = true :=
  ⟨by decide, by simp, by decide⟩

/-- One that is selected, one that is not. -/
theorem witness_unselected_sub_operations :
    Instr.decStart false 5 ∈ ([.decIgnore, .decStart false 5, .decData false 5, .decParity false 5,
      .decStop false 5, .encIgnore, .encData, .encParity, .encStop, .encAck false] : List Instr) ∧
    edgeSub false 5 s0 = .decStart false 5 ∧ Instr.encData ≠ edgeSub false 5 s0 ∧
    Instr.tickNop ∈ tickSubs true s0 ∧ Instr.tickWrEnd ∉ tickSubs true s0 ∧
    readSub s0 = .qReadEmpty ∧ Instr.qReadByte ≠ readSub s0 := by decide

/-! #### The queue as a list -/

/-- A queue with one byte is well-formed and its contents are that byte. -/
theorem witness_fifo_one_byte : oneByte.queue.wf ∧ oneByte.queue.contents = [0x1C] := by
  have hocc : oneByte.queue.occupied = [0] := by
    simp only [Queue.occupied, Queue.count, oneByte]
    split
    · rename_i h
      have h₁ : (0 : Nat) = (0 + 1) % (Config.capacityExcess + 1) := congrArg Fin.val h
      have hN : Config.capacityExcess = 0 := by
        by_contra hne
        rw [Nat.mod_eq_of_lt (by omega)] at h₁
        exact absurd h₁ (by decide)
      simp [Config.queueCapacity, hN]
    · rename_i h
      have hN : Config.capacityExcess ≠ 0 := fun hN => h (Fin.ext (by simp [Config.queueCapacity, hN]))
      have h₁ : (nextSlot (0 : Fin Config.queueCapacity)).val = 1 :=
        Nat.mod_eq_of_lt (show 0 + 1 < Config.capacityExcess + 1 by omega)
      have h₂ : (1 + Config.queueCapacity - 0) % Config.queueCapacity = 1 := by
        rw [Nat.sub_zero, Nat.add_mod_right]
        exact Nat.mod_eq_of_lt (by simp only [Config.queueCapacity]; omega)
      rw [h₁]
      show (List.range ((1 + Config.queueCapacity - 0) % Config.queueCapacity)).map _ = _
      rw [h₂]
      rfl
  refine ⟨⟨by simp [oneByte], by simp [oneByte], by simp [oneByte], ?_⟩, ?_⟩
  · rw [hocc]
    decide
  · unfold Queue.contents
    rw [hocc]
    rfl

/-- An empty queue is well-formed, holds nothing, and is not full. -/
theorem witness_fifo_empty :
    s0.queue.wf ∧ s0.queue.contents = [] ∧ s0.queue.isFull = false ∧ s0.queue.q_head = none :=
  ⟨⟨by decide, by decide, by simp [s0, State.reset], by simp [s0, State.reset, Queue.occupied]⟩, rfl, rfl, rfl⟩

/-- A queue with every slot written and equal cursors is well-formed and full. -/
theorem witness_fifo_full :
    ∃ s : State, s.queue.wf ∧ s.queue.isFull = true := by
  have read_range : ∀ (l : List Nat) (a : Nat), a ∈ l →
      (Memory.read (l.map fun i => (i, (0#8 : Byte))) a).isSome := by
    intro l
    induction l with
    | nil => intro a ha; cases ha
    | cons k rest ih =>
      intro a ha
      simp only [List.map_cons, Memory.read]
      split
      · rfl
      · rename_i hne
        exact ih a (by simpa [Ne.symm hne] using ha)
  refine ⟨fullCursors ((List.range Config.queueCapacity).map fun i => (i, 0#8)), ⟨?_, ?_, ?_, ?_⟩, ?_⟩
  · simp [fullCursors]
  · simp only [fullCursors, Memory.wf, List.pairwise_map]
    exact List.pairwise_lt_range
  · simp [fullCursors]
  · intro a ha
    refine read_range _ a ?_
    simp only [Queue.occupied, fullCursors, List.mem_map] at ha
    obtain ⟨i, -, rfl⟩ := ha
    exact List.mem_range.mpr (Nat.mod_lt _ (Nat.succ_pos _))
  · simp [fullCursors, Queue.isFull]

/-! #### Whole-machine rules -/

theorem witness_armed_is_written :
    look (exec (.tick false) { counting 0 0 1 with armed := .enc }) State.armed = some .dec ∧
    look (exec .tickWrEnd (counting 0 1 0)) State.armed = some .enc := by decide

theorem witness_timer_flag :
    look (exec .init State.reset) State.timer_cfg = some true ∧
    look (exec .reset s0) State.timer_cfg = some false ∧
    look (exec (.tick true) s0) State.timer_cfg = some true := by decide

/-- Each operation of the two rules answers a next state from S0. -/
theorem witness_operations_answer :
    ([.read, .init, .send 0x41, .inhibit, .edge false 5, .tick true] : List Instr).all
      (fun i => (after (exec i s0)).isSome) = true := by decide

theorem witness_handlers :
    (after (exec (.edge false 5) s0)).isSome = true ∧ s0.armed = .dec ∧
    (after (exec (.edge false 5) (sending 0 0x41 false .low))).isSome = true ∧
    (sending 0 0x41 false .low).armed = .enc := by decide

theorem witness_slots_are_written :
    ∃ t, exec (.qPutStore 0x1C) s0 = .next t ∧ Instr.qPutStore 0x1C ≠ .reset ∧
      (∀ f now gap, Instr.qPutStore 0x1C ≠ .rxframe f now gap) ∧
      (∀ b now gap ack, Instr.qPutStore 0x1C ≠ .txframe ack b now gap) ∧
      t.queue.q_slot.read 0 ≠ s0.queue.q_slot.read 0 :=
  ⟨_, rfl, by decide, by simp, by simp, by decide⟩

/-- The rows of the role table in their order, each from a state of ordinary use: SEND, an invalid frame,
a TICK that ends the inhibit phase, one that ends the write-request phase, the acknowledgment, the
end of the settle phase, SEND while transmitting, INIT while transmitting, RESET while settling. -/
theorem witness_role_changes :
    (∀ p ∈ ([(.send 0x41, s0, .idle), (.edge false 1001, receiving 10 0 false false 1000, .idle),
        (.tick false, counting 1 0 0, .receiving), (.tick false, counting 0 1 0, .transmitting),
        (.edge false 5, sending 10 0 false .rel, .settling),
        (.tick false, { counting 0 0 1 with armed := .enc }, .receiving),
        (.send 0x41, sending 3 0 false .low, .idle), (.init, sending 3 0 false .low, .receiving),
        (.reset, { counting 0 0 4 with armed := .enc }, .receiving)] : List (Instr × State × Role)),
      look (exec p.1 p.2.1) role = some p.2.2 ∧ role p.2.1 ≠ p.2.2) ∧
    (UseInv s0 ∧ UseInv (receiving 10 0 false false 1000) ∧ UseInv (counting 1 0 0) ∧
      UseInv (counting 0 1 0) ∧ UseInv (sending 10 0 false .rel) ∧
      UseInv { counting 0 0 1 with armed := .enc } ∧ UseInv (sending 3 0 false .low) ∧
      UseInv { counting 0 0 4 with armed := .enc }) := by
  refine ⟨by decide, ?_, ?_, ?_, ?_, ?_, ?_, ?_, ?_⟩ <;>
    simp [UseInv, AtMostOneCounter, s0, counting, sending, receiving, State.reset]

theorem witness_self_caused_edges :
    ((counting 0 2 0).armed = .dec ∧ 1#8 < (counting 0 2 0).wr_cnt ∧
      (after (exec .tickWrHold (counting 0 2 0))).isSome = true) ∧
    ((counting 2 0 0).armed = .dec ∧ 1#8 < (counting 2 0 0).inh_cnt ∧
      (after (exec .tickInhHold (counting 2 0 0))).isSome = true) ∧
    (after (exec (.encAck false) (sending 10 0 false .rel))).isSome = true ∧
    (1#8 < { sending 0 0 false .rel with st_cnt := 2 }.st_cnt ∧
      (after (exec (.tickStHold true) { sending 0 0 false .rel with st_cnt := 2 })).isSome = true) := by
  decide

theorem witness_settle_hold :
    let s := { counting 0 0 2 with armed := .enc, clk_drv := .low }
    EnvOk (.tick false) s ∧ s.clk_drv = .low ∧ 1#8 < s.st_cnt ∧ s.inh_cnt = 0#8 ∧ s.wr_cnt = 0#8 :=
  ⟨⟨fun _ => rfl, rfl⟩, rfl, by decide, rfl, rfl⟩

/-! #### Invariants -/

/-- A state with a byte in the queue and a request pending meets the invariant, and its step answers. -/
theorem witness_step_keeps :
    let s := { oneByte with trace := [.word 0x5000 0] }
    CoreInv s ∧ ∃ t, step s = .next t :=
  ⟨⟨witness_fifo_one_byte.1, by simp [oneByte, s0, State.reset, BitVec.le_def], by decide, by decide⟩, _, rfl⟩

theorem witness_reachable : Reachable { s0 with trace := [.word 0x5000 0] } :=
  .step { State.reset with trace := [.word 0x1000 0, .word 0x5000 0] } _ (.reset _) rfl

theorem witness_use_in_role :
    UseInv s0 ∧ usedInRole (.send 0x41) s0 ∧ ∃ t, exec (.send 0x41) s0 = .next t :=
  ⟨witness_role_changes.2.1, witness_write_sequence, _, rfl⟩

end Sys2Proof.Tests
end

-- Proofs: the queue
section
/-! PROOFS. The slots in use: how a put and a read change them, and that both keep a queue well-formed
(10_state.md R24 to R26, 43_queue.md R110 to R114). -/

namespace Sys2Proof.Machine

variable {m n : Nat}

/-! ### Cursor arithmetic -/

/-- Cursor sums stay below `2 * n`, where reduction modulo `n` is at most one subtraction. -/
theorem mod_eq_of_lt_two_mul {x n : Nat} (h : x < 2 * n) : x % n = if x < n then x else x - n := by
  split
  · exact Nat.mod_eq_of_lt ‹_›
  · rw [Nat.mod_eq_sub_mod (by omega), Nat.mod_eq_of_lt (by omega)]

theorem nextSlot_val_eq (i : Fin n) : (nextSlot i).val = if i.val + 1 < n then i.val + 1 else 0 := by
  have hi := i.isLt
  rw [nextSlot_val, mod_eq_of_lt_two_mul (by omega)]
  split <;> omega

/-- `count` as a distance on the ring of slots, without the reduction modulo `n` (R26). -/
theorem Queue.count_eq {q : Queue n} {h t : Fin n} (hh : q.q_head = some h) (ht : q.q_tail = some t) :
    q.count = if h.val = t.val then n else if h.val < t.val then t.val - h.val else t.val + n - h.val := by
  have hh' := h.isLt
  have ht' := t.isLt
  simp only [Queue.count, hh, ht, Fin.ext_iff]
  rw [mod_eq_of_lt_two_mul (by omega)]
  split_ifs <;> omega

theorem Queue.occupied_of_head {q : Queue n} {h : Fin n} (hh : q.q_head = some h) :
    q.occupied = (List.range q.count).map fun i => (h.val + i) % n := by
  simp [Queue.occupied, hh]

theorem Queue.occupied_of_empty {q : Queue n} (hh : q.q_head = none) : q.occupied = [] := by
  simp [Queue.occupied, hh]

/-- In a well-formed queue both cursors are set or neither is (R24). -/
theorem Queue.tail_of_head {q : Queue n} {h : Fin n} (hq : q.wf) (hh : q.q_head = some h) :
    ∃ t, q.q_tail = some t := by
  obtain ⟨hcursors, -⟩ := hq
  exact Option.ne_none_iff_exists'.mp (mt hcursors.mpr (by simp [hh]))

/-! ### Put -/

theorem Queue.storeSlot_of_empty {q : Queue (m + 1)} (hh : q.q_head = none) : q.storeSlot = some 0 := by
  simp [Queue.storeSlot, hh]

theorem Queue.storeSlot_of_head {q : Queue (m + 1)} {h : Fin (m + 1)} (hh : q.q_head = some h) :
    q.storeSlot = q.q_tail := by
  simp [Queue.storeSlot, hh]

theorem Queue.isFull_eq_false {q : Queue n} {h t : Fin n} (hf : q.isFull = false)
    (hh : q.q_head = some h) (ht : q.q_tail = some t) : h ≠ t := by
  simpa [Queue.isFull, hh, ht] using hf

/-- The first put leaves one slot in use, also when `N` is 1 and the cursors meet (R110). -/
theorem Queue.count_first_store (slots : Memory) :
    Queue.count (n := m + 1) { q_head := some 0, q_tail := some (nextSlot 0), q_slot := slots } = 1 := by
  have hnext := nextSlot_val_eq (0 : Fin (m + 1))
  have hzero : (0 : Fin (m + 1)).val = 0 := rfl
  rw [Queue.count_eq rfl rfl]
  split_ifs at hnext ⊢ <;> omega

/-- Moving `q_tail` on, away from a `q_head` it did not meet, takes one more slot into use. -/
theorem Queue.count_next_store {q : Queue n} {h t : Fin n} (hh : q.q_head = some h)
    (ht : q.q_tail = some t) (hne : h ≠ t) (slots : Memory) :
    Queue.count { q_head := some h, q_tail := some (nextSlot t), q_slot := slots } = q.count + 1 := by
  have hne' := Fin.val_ne_of_ne hne
  have hlt := h.isLt
  have htlt := t.isLt
  rw [Queue.count_eq rfl rfl, Queue.count_eq hh ht, nextSlot_val_eq]
  split_ifs <;> omega

/-- `q_tail` is the slot after those in use. -/
theorem Queue.head_add_count {q : Queue n} {h t : Fin n} (hh : q.q_head = some h)
    (ht : q.q_tail = some t) : (h.val + q.count) % n = t.val := by
  have hlt := h.isLt
  have htlt := t.isLt
  have hsum : h.val + q.count = t.val ∨ h.val + q.count = t.val + n := by
    rw [Queue.count_eq hh ht]
    split_ifs <;> omega
  rcases hsum with hs | hs <;> simp [hs, Nat.mod_eq_of_lt htlt]

/-- A put takes the slot it stores to into use, as the newest (R111). -/
theorem Queue.occupied_store {b : Byte} {q q' : Queue (m + 1)} {a : Fin (m + 1)} (hf : q.isFull = false)
    (ha : q.storeSlot = some a) (h : q.store b = some q') : q'.occupied = q.occupied ++ [a.val] := by
  obtain ⟨a', ha', rfl⟩ := Queue.store_eq h
  cases ha.symm.trans ha'
  cases hh : q.q_head with
  | none =>
    have ha₀ : a = 0 := Option.some.inj (ha.symm.trans (Queue.storeSlot_of_empty hh))
    rw [Queue.occupied_of_empty hh, Queue.occupied_of_head rfl, ha₀, Option.getD_none,
      Queue.count_first_store]
    simp
  | some h =>
    have ht : q.q_tail = some a := (Queue.storeSlot_of_head hh).symm.trans ha
    rw [Queue.occupied_of_head hh, Queue.occupied_of_head rfl, Option.getD_some,
      Queue.count_next_store hh ht (Queue.isFull_eq_false hf hh ht), List.range_succ, List.map_append,
      List.map_singleton, Queue.head_add_count hh ht]

/-- A well-formed queue has a slot to store to (R24). -/
theorem Queue.exists_store {q : Queue (m + 1)} (hq : q.wf) (b : Byte) : ∃ q', q.store b = some q' := by
  unfold Queue.store Queue.storeSlot
  cases hh : q.q_head with
  | none => exact ⟨_, rfl⟩
  | some h =>
    obtain ⟨t, ht⟩ := Queue.tail_of_head hq hh
    exact ⟨_, by rw [ht]⟩

theorem Queue.store_wf {b : Byte} {q q' : Queue (m + 1)} (hq : q.wf) (hf : q.isFull = false)
    (h : q.store b = some q') : q'.wf := by
  obtain ⟨-, hslots, hbound, hwritten⟩ := hq
  obtain ⟨a, ha, hq'⟩ := Queue.store_eq h
  refine ⟨by simp [hq'], Queue.store_slots_wf h hslots, fun c hc => ?_, fun k hk => ?_⟩
  · rw [hq'] at hc
    rcases Memory.mem_write hc with rfl | hc
    · exact a.isLt
    · exact hbound c hc
  · by_cases hka : a.val = k
    · simp [hq', ← hka, Memory.read_write_same]
    · rw [Queue.store_read h (by simpa [ha] using hka)]
      rw [Queue.occupied_store hf ha h, List.mem_append, List.mem_singleton] at hk
      exact hwritten k (hk.resolve_right (Ne.symm hka))

/-! ### Read and clear -/

/-- Moving `q_head` on, short of `q_tail`, frees one slot. -/
theorem Queue.count_moved_head {q : Queue n} {h t : Fin n} (hh : q.q_head = some h)
    (ht : q.q_tail = some t) (hne : nextSlot h ≠ t) :
    q.count = Queue.count { q with q_head := some (nextSlot h) } + 1 := by
  have hnext := nextSlot_val_eq h
  have hne' := Fin.val_ne_of_ne hne
  have hlt := h.isLt
  have htlt := t.isLt
  have hmoved := Queue.count_eq (q := { q with q_head := some (nextSlot h) }) rfl ht
  rw [Queue.count_eq hh ht, hmoved]
  split_ifs at hnext ⊢ <;> omega

/-- Slots in use when both cursors are set: the one at `q_head`, then those left when the cursor has moved
on (R112). -/
theorem Queue.occupied_eq_cons_advance {q : Queue n} {h t : Fin n} (hh : q.q_head = some h)
    (ht : q.q_tail = some t) : q.occupied = h.val :: (q.advance h).occupied := by
  have hlt := h.isLt
  have htlt := t.isLt
  rw [Queue.occupied_of_head hh]
  unfold Queue.advance
  split
  · rename_i hmeet
    have hval : (nextSlot h).val = t.val := congrArg Fin.val (Option.some.inj (hmeet.trans ht))
    have hcount : q.count = 1 := by
      rw [nextSlot_val_eq] at hval
      rw [Queue.count_eq hh ht]
      split_ifs at hval ⊢ <;> omega
    rw [Queue.occupied_of_empty rfl, hcount]
    simp [Nat.mod_eq_of_lt hlt]
  · rename_i hmeet
    have hne : nextSlot h ≠ t := fun hv => hmeet (by rw [hv, ht])
    rw [Queue.occupied_of_head rfl, Queue.count_moved_head hh ht hne, List.range_succ_eq_map]
    simp [Nat.mod_eq_of_lt hlt, Nat.add_right_comm, ← Nat.add_assoc]

theorem Queue.advance_wf {q : Queue n} {h : Fin n} (hq : q.wf) (hh : q.q_head = some h) :
    (q.advance h).wf := by
  obtain ⟨t, ht⟩ := Queue.tail_of_head hq hh
  obtain ⟨-, hslots, hbound, hwritten⟩ := hq
  refine ⟨?_, by rwa [Queue.advance_slots], by rwa [Queue.advance_slots], fun a ha => ?_⟩
  · unfold Queue.advance
    split <;> simp [ht]
  · rw [Queue.advance_slots]
    exact hwritten a (by rw [Queue.occupied_eq_cons_advance hh ht]; exact List.mem_cons_of_mem _ ha)

/-- The slot at `q_head` of a well-formed queue has been written (R25). -/
theorem Queue.read_head_isSome {q : Queue n} {h : Fin n} (hq : q.wf) (hh : q.q_head = some h) :
    (q.q_slot.read h.val).isSome := by
  obtain ⟨t, ht⟩ := Queue.tail_of_head hq hh
  obtain ⟨-, -, -, hwritten⟩ := hq
  exact hwritten _ (by rw [Queue.occupied_eq_cons_advance hh ht]; exact List.mem_cons_self)

theorem Queue.clear_wf {q : Queue n} (hq : q.wf) : q.clear.wf := by
  obtain ⟨-, hslots, hbound, -⟩ := hq
  exact ⟨by simp, hslots, hbound, by simp [Queue.occupied_of_empty (Queue.clear_head q)]⟩

end Sys2Proof.Machine
end

-- Proofs: what an operation comes down to
section
/-! PROOFS. Every operation is refused or is one of a dozen shared operations on the state: a
sub-operation, where the state selects it, is the EDGE, READ, put or counter block it belongs to
(30_encoding.md R64). Claims about all operations are proved from this one inversion. -/

namespace Sys2Proof.Machine

/-- The sub-operation an EDGE selects does what the EDGE does (R64). -/
theorem exec_edgeSub (d : Bool) (now : Nat) (s : State) :
    exec (edgeSub d now s) s = execEdge d now s := by
  cases ha : s.armed with
  | dec =>
    simp only [execEdge, decEdge, edgeSub, ha]
    cases hc : countersZero s with
    | false => simp [exec, execDecIgnore, ha, hc]
    | true =>
      have hopen : decOpen s = true := by simp [decOpen, ha, hc]
      simp only [positionAction, stalenessGuard_rx_pos, Bool.not_true, Bool.false_eq_true, if_false, if_true]
      split_ifs with h₀ h₈ h₉
      · simp [exec, execDecStart, hopen, h₀]
      · have h₁ : 1 ≤ (guardedPos now s).val := by omega
        simp [exec, execDecData, hopen, h₁, h₈]
      · simp [exec, execDecParity, hopen, h₉]
      · have h₁₀ : (guardedPos now s).val = 10 := by omega
        simp [exec, execDecStop, hopen, h₁₀]
  | enc =>
    simp only [execEdge, encEdge, edgeSub, ha]
    by_cases hst : s.st_cnt = 0#8
    · have hopen : encOpen s = true := by simp [encOpen, ha, hst]
      simp only [hst, encAction, ne_eq, not_true, if_false]
      split_ifs with h₇ h₈ h₉
      · simp [exec, execEncData, hopen, h₇]
      · simp [exec, execEncParity, hopen, h₈]
      · simp [exec, execEncStop, hopen, h₉]
      · have h₁₀ : s.tx_pos.val = 10 := by omega
        simp [exec, execEncAck, hopen, h₁₀]
    · simp [exec, execEncIgnore, ha, hst]

/-! ### A block, a put or a read in the states of one case -/

theorem counter_ne_of_one_lt {x : Config.Counter} (h : 1#8 < x) : x ≠ 0#8 ∧ x ≠ 1#8 := by
  constructor <;> rintro rfl <;> exact absurd h (by decide)

theorem inhBlock_of_one_lt {s : State} (h : 1#8 < s.inh_cnt) : inhBlock s = inhHold s := by
  simp [inhBlock, (counter_ne_of_one_lt h).1, h]

theorem inhBlock_of_eq_one {s : State} (h : s.inh_cnt = 1#8) : inhBlock s = inhEnd s := by
  simp [inhBlock, h]

theorem wrBlock_of_one_lt {s : State} (h : 1#8 < s.wr_cnt) : wrBlock s = wrHold s := by
  simp [wrBlock, (counter_ne_of_one_lt h).1, h]

theorem wrBlock_of_eq_one {s : State} (h : s.wr_cnt = 1#8) : wrBlock s = wrEnd s := by
  simp [wrBlock, h]

theorem stBlock_of_one_lt {s : State} (c : Bool) (h : 1#8 < s.st_cnt) : stBlock c s = stHold c s := by
  simp [stBlock, (counter_ne_of_one_lt h).1, h]

theorem stBlock_of_eq_one {s : State} (c : Bool) (h : s.st_cnt = 1#8) : stBlock c s = endSettle s := by
  simp [stBlock, h]

theorem qRead_of_empty {s : State} (h : s.queue.q_head = none) : qRead s = .next (readEmpty s) := by
  simp [qRead, h]

theorem qRead_of_head {s : State} {a : Fin Config.queueCapacity} (h : s.queue.q_head = some a) :
    qRead s = readByte a s := by
  simp [qRead, h]

theorem qPut_of_full {s : State} (b : Byte) (h : s.queue.isFull = true) :
    qPut b s = .next (putDrop s) := by
  simp [qPut, h]

theorem qPut_of_not_full {s : State} (b : Byte) (h : s.queue.isFull = false) :
    qPut b s = putStore b s := by
  simp [qPut, h]

/-! ### The inversion -/

/-- `Effect s i r`: the operation `i` in the state `s` comes down to the shared operation that answers `r`.
The index `i` is kept as far as a claim about who writes an element needs it. -/
inductive Effect (s : State) : Instr → Result → Prop where
  | refused (i : Instr) (f : Refusal) : Effect s i (.refused f)
  | idle (i : Instr) : Effect s i (.next s)
  | reset : Effect s .reset (execReset s)
  | init : Effect s .init (execInit s)
  | send (b : Byte) : Effect s (.send b) (execSend b s)
  | inhibit : Effect s .inhibit (execInhibit s)
  | edge (i : Instr) (d : Bool) (now : Nat) (hi : i = .edge d now ∨ i = edgeSub d now s) :
      Effect s i (execEdge d now s)
  | tick (c : Bool) : Effect s (.tick c) (execTick c s)
  | inhBlock (i : Instr) : Effect s i (.next (inhBlock s))
  | wrBlock (i : Instr) (hi : s.wr_cnt = 1#8 → i = .tickWrEnd) : Effect s i (.next (wrBlock s))
  | stBlock (i : Instr) (c : Bool) (hi : s.st_cnt = 1#8 → i = .tickStEnd) :
      Effect s i (.next (stBlock c s))
  | read (i : Instr) : Effect s i (qRead s)
  | put (i : Instr) (b : Byte) (hi : s.queue.isFull = false → i = .qPutStore b) : Effect s i (qPut b s)
  | clear : Effect s .qClear (execQClear s)
  | rxframe (f : Frame11) (now gap : Nat) : Effect s (.rxframe f now gap) (execRxframe f now gap s)
  | txframe (a : Bool) (b : Byte) (now gap : Nat) :
      Effect s (.txframe a b now gap) (execTxframe a b now gap s)

/-- A sub-operation that is not selected is refused. -/
theorem Effect.of_selected {s : State} {i : Instr} {sel : Bool} {m : String} {r : Result}
    (h : sel = true → Effect s i r) : Effect s i (selected sel m r) := by
  cases sel with
  | true => exact h rfl
  | false => exact .refused _ _

/-- A sub-operation of EDGE is refused or the one that the state selects. -/
theorem Effect.of_edgeSub {s : State} {i : Instr} {sel : Bool} {m : String} {r : Result} (d : Bool)
    (now : Nat) (hr : exec i s = selected sel m r) (hi : sel = true → edgeSub d now s = i) :
    Effect s i (exec i s) := by
  cases sel with
  | true =>
    have he := exec_edgeSub d now s
    rw [hi rfl] at he
    rw [he]
    exact .edge _ d now (.inr (hi rfl).symm)
  | false =>
    rw [hr]
    exact .refused _ _

theorem exec_effect (i : Instr) (s : State) : Effect s i (exec i s) := by
  cases i with
  | reset => exact .reset
  | init => exact .init
  | edge d now => exact .edge _ d now (.inl rfl)
  | tick c => exact .tick c
  | send b => exact .send b
  | read => exact .read _
  | inhibit => exact .inhibit
  | decIgnore => exact .of_selected fun _ => .idle _
  | decStart d now => exact .of_edgeSub d now rfl fun h => by simp_all [edgeSub, decOpen]
  | decData d now =>
    refine .of_edgeSub d now rfl fun h => ?_
    simp only [decOpen, Bool.and_eq_true, decide_eq_true_eq] at h
    obtain ⟨⟨ha, hc⟩, h₁, h₈⟩ := h
    have h₀ : (guardedPos now s).val ≠ 0 := by omega
    simp only [edgeSub, ha, hc, h₈]
    simp [h₀]
  | decParity d now => exact .of_edgeSub d now rfl fun h => by simp_all [edgeSub, decOpen]
  | decStop d now => exact .of_edgeSub d now rfl fun h => by simp_all [edgeSub, decOpen]
  | encIgnore => exact .of_selected fun _ => .idle _
  | encData => exact .of_edgeSub false 0 rfl fun h => by simp_all [edgeSub, encOpen]
  | encParity => exact .of_edgeSub false 0 rfl fun h => by simp_all [edgeSub, encOpen]
  | encStop => exact .of_edgeSub false 0 rfl fun h => by simp_all [edgeSub, encOpen]
  | encAck d => exact .of_edgeSub d 0 rfl fun h => by simp_all [edgeSub, encOpen]
  | tickInhHold => exact .of_selected fun h => inhBlock_of_one_lt (of_decide_eq_true h) ▸ .inhBlock _
  | tickInhEnd => exact .of_selected fun h => inhBlock_of_eq_one (of_decide_eq_true h) ▸ .inhBlock _
  | tickWrHold =>
    refine .of_selected fun h => ?_
    rw [← wrBlock_of_one_lt (of_decide_eq_true h)]
    exact .wrBlock _ fun h₁ => absurd h₁ (counter_ne_of_one_lt (of_decide_eq_true h)).2
  | tickWrEnd => exact .of_selected fun h => wrBlock_of_eq_one (of_decide_eq_true h) ▸ .wrBlock _ fun _ => rfl
  | tickStHold c =>
    refine .of_selected fun h => ?_
    rw [← stBlock_of_one_lt c (of_decide_eq_true h)]
    exact .stBlock _ c fun h₁ => absurd h₁ (counter_ne_of_one_lt (of_decide_eq_true h)).2
  | tickStEnd =>
    exact .of_selected fun h => stBlock_of_eq_one false (of_decide_eq_true h) ▸ .stBlock _ _ fun _ => rfl
  | tickNop => exact .of_selected fun _ => .idle _
  | qReadEmpty =>
    refine .of_selected fun h => ?_
    rw [← qRead_of_empty (of_decide_eq_true h)]
    exact .read _
  | qReadByte =>
    simp only [exec, execQReadByte]
    split
    · exact .refused _ _
    · rename_i a ha
      exact qRead_of_head ha ▸ .read _
  | qPutStore b =>
    refine .of_selected fun h => ?_
    rw [← qPut_of_not_full b (by simpa using h)]
    exact .put _ b fun _ => rfl
  | qPutDrop b =>
    refine .of_selected fun h => ?_
    rw [← qPut_of_full b h]
    exact .put _ b fun hf => absurd (hf.symm.trans h) Bool.false_ne_true
  | qClear => exact .clear
  | rxframe f now gap => exact .rxframe f now gap
  | txframe a b now gap => exact .txframe a b now gap

end Sys2Proof.Machine
end

-- Proofs: the invariant of R33 items 1, 3 and 4
section
/-! PROOFS. No operation faults in a state that meets `CoreInv`, and each keeps it (10_state.md R24, R25,
R33; 60_exceptions.md R140). -/

namespace Sys2Proof.Machine

/-! ### The counters -/

/-- A countdown step stays within the load value. -/
theorem counter_dec_le {x l : Config.Counter} (h : x ≤ l) : (if x = 0#8 then 0#8 else x - 1#8) ≤ l := by
  split
  · exact Nat.zero_le _
  · rename_i h₀
    rw [BitVec.le_def, BitVec.toNat_sub_of_le (by bv_omega)]
    exact Nat.le_trans (Nat.sub_le _ _) h

theorem coreInv_inhBlock {s : State} (h : CoreInv s) : CoreInv (inhBlock s) := by
  obtain ⟨hq, hi, hw, hs⟩ := h
  rw [inhBlock_eq]
  exact ⟨hq, counter_dec_le hi, hw, hs⟩

theorem coreInv_wrBlock {s : State} (h : CoreInv s) : CoreInv (wrBlock s) := by
  obtain ⟨hq, hi, hw, hs⟩ := h
  rw [wrBlock_eq]
  exact ⟨hq, hi, counter_dec_le hw, hs⟩

theorem coreInv_stBlock (c : Bool) {s : State} (h : CoreInv s) : CoreInv (stBlock c s) := by
  obtain ⟨hq, hi, hw, hs⟩ := h
  rw [stBlock_eq]
  exact ⟨hq, hi, hw, counter_dec_le hs⟩

theorem coreInv_tickAll (c : Bool) {s : State} (h : CoreInv s) : CoreInv (tickAll c s) :=
  coreInv_stBlock c (coreInv_wrBlock (coreInv_inhBlock h))

theorem coreInv_requestSend (b : Byte) {s : State} (h : CoreInv s) : CoreInv (requestSend b s) := by
  obtain ⟨hq, hi, -, hs⟩ := h
  exact ⟨hq, hi, BitVec.le_refl _, hs⟩

/-- INHIBIT starts its countdown in the Receiving role and changes nothing in the others (R127). -/
theorem execInhibit_eq_next {s t : State} (h : execInhibit s = .next t) :
    (s.armed = .dec ∧ s.inh_cnt = 0#8 ∧ s.wr_cnt = 0#8 ∧ s.st_cnt = 0#8 ∧
        t = { s with inh_cnt := Config.inhibitTicks }) ∨ t = s := by
  unfold execInhibit at h
  split at h
  · rename_i hr
    obtain ⟨ha, hi, hw, hs⟩ := hr
    exact .inl ⟨ha, hi, hw, hs, (Host.Outcome.next.inj h).symm⟩
  · exact .inr (Host.Outcome.next.inj h).symm

theorem coreInv_execInhibit {s t : State} (h : CoreInv s) (ht : execInhibit s = .next t) :
    CoreInv t := by
  rcases execInhibit_eq_next ht with ⟨-, -, -, -, rfl⟩ | rfl
  · obtain ⟨hq, -, hw, hs⟩ := h
    exact ⟨hq, BitVec.le_refl _, hw, hs⟩
  · exact h

/-! ### The queue -/

theorem coreInv_qPut {b : Byte} {s t : State} (h : CoreInv s) (ht : qPut b s = .next t) :
    CoreInv t := by
  obtain ⟨hq, hcnt⟩ := h
  rcases qPut_eq_next ht with ⟨-, rfl⟩ | ⟨hf, q, hstore, rfl⟩
  · exact ⟨hq, hcnt⟩
  · exact ⟨Queue.store_wf hq hf hstore, hcnt⟩

theorem coreInv_qRead {s t : State} (h : CoreInv s) (ht : qRead s = .next t) : CoreInv t := by
  obtain ⟨hq, hcnt⟩ := h
  rcases qRead_eq_next ht with ⟨-, rfl⟩ | ⟨a, b, ha, -, rfl⟩
  · exact ⟨hq, hcnt⟩
  · exact ⟨Queue.advance_wf hq ha, hcnt⟩

theorem qPut_ne_fault {s : State} (h : s.queue.wf) (b : Byte) (f : Fault) : qPut b s ≠ .fault f := by
  obtain ⟨q, hq⟩ := Queue.exists_store h b
  simp only [qPut, putStore, hq]
  split <;> simp

theorem qRead_ne_fault {s : State} (h : s.queue.wf) (f : Fault) : qRead s ≠ .fault f := by
  cases hh : s.queue.q_head with
  | none => simp [qRead_of_empty hh]
  | some a =>
    obtain ⟨b, hb⟩ := Option.isSome_iff_exists.mp (Queue.read_head_isSome h hh)
    simp [qRead_of_head hh, readByte, hb]

/-! ### The edges -/

theorem coreInv_execEdge {d : Bool} {now : Nat} {s t : State} (h : CoreInv s)
    (ht : execEdge d now s = .next t) : CoreInv t := by
  obtain ⟨hq, hi, hw, hs⟩ := h
  rcases execEdge_eq_next ht with ⟨-, hdec⟩ | ⟨-, rfl⟩
  · rcases decEdge_cases hdec with ⟨-, rfl⟩ | ⟨-, -, _, _, _, _, rfl⟩ | ⟨-, -, -, rfl⟩ |
      ⟨-, -, -, -, rfl⟩ | ⟨-, -, -, hf, q, hstore, rfl⟩
    · exact ⟨hq, hi, hw, hs⟩
    · exact ⟨hq, hi, hw, hs⟩
    · exact ⟨hq, hi, BitVec.le_refl _, hs⟩
    · exact ⟨hq, hi, hw, hs⟩
    · exact ⟨Queue.store_wf hq hf hstore, hi, hw, hs⟩
  · rcases encEdge_cases d s with ⟨-, he⟩ | ⟨-, -, _, _, _, _, he⟩ | ⟨-, -, he⟩ <;> rw [he]
    · exact ⟨hq, hi, hw, hs⟩
    · exact ⟨hq, hi, hw, hs⟩
    · exact ⟨hq, hi, hw, BitVec.le_refl _⟩

/-- Only the put at the end of a valid frame could fault (R80, R81). -/
theorem stopBit_ne_fault {s : State} (h : s.queue.wf) (d : Bool) (f : Fault) :
    stopBit d s ≠ .fault f := by
  intro hf
  simp only [stopBit, endValid] at hf
  split at hf
  · cases hf
  · rcases andThen_eq_fault hf with hput | ⟨_, -, hend⟩
    · exact qPut_ne_fault (s := { s with rx_bad := badAfterStop d s.rx_bad }) h _ _ hput
    · cases hend

theorem execEdge_ne_fault {s : State} (h : s.queue.wf) (d : Bool) (now : Nat) (f : Fault) :
    execEdge d now s ≠ .fault f := by
  have hstop := stopBit_ne_fault (s := stalenessGuard now s) (by rwa [stalenessGuard_eq]) d f
  unfold execEdge
  split
  · unfold decEdge positionAction
    split_ifs <;> simp [hstop]
  · simp

theorem runEdges_ne_fault {es : List (Bool × Nat)} {s : State} (h : CoreInv s) (f : Fault) :
    runEdges es s ≠ .fault f := by
  induction es generalizing s with
  | nil => simp [runEdges]
  | cons e rest ih =>
    intro hf
    rcases andThen_eq_fault hf with he | ⟨u, hu, hrest⟩
    · exact execEdge_ne_fault h.1 _ _ _ he
    · exact ih (coreInv_execEdge h hu) hrest

theorem clockOut_ne_fault {n now gap : Nat} {s : State} (h : CoreInv s) (f : Fault) :
    clockOut n now gap s ≠ .fault f := by
  induction n generalizing now s with
  | zero => simp [clockOut]
  | succ n ih =>
    intro hf
    rcases andThen_eq_fault hf with he | ⟨u, hu, hrest⟩
    · exact execEdge_ne_fault h.1 _ _ _ he
    · exact ih (coreInv_execEdge h hu) hrest

theorem execTxframe_ne_fault {s : State} (h : CoreInv s) (a : Bool) (b : Byte) (now gap : Nat)
    (f : Fault) : execTxframe a b now gap s ≠ .fault f := by
  have hticks := ticks_keeps (P := CoreInv) (fun c _ hs => coreInv_tickAll c hs)
    Config.writeTicks.toNat _ (coreInv_requestSend b h)
  intro hf
  rcases andThen_eq_fault hf with hclk | ⟨_, -, hend⟩
  · rcases andThen_eq_fault hclk with hout | ⟨u, hu, hack⟩
    · exact clockOut_ne_fault hticks _ hout
    · have hu' := clockOut_keeps (fun _ _ _ _ hs => coreInv_execEdge hs) _ _ _ _ u hticks hu
      exact execEdge_ne_fault hu'.1 _ _ _ hack
  · cases hend

/-! ### Every operation -/

theorem coreInv_reset (trace : List TraceLine) : CoreInv { State.reset with trace := trace } := by
  refine ⟨⟨by simp [State.reset], Memory.reset_wf, by simp [State.reset], ?_⟩, ?_, ?_, ?_⟩
  · simp [Queue.occupied_of_empty, State.reset]
  all_goals exact Nat.zero_le _

theorem coreInv_exec {i : Instr} {s t : State} (h : CoreInv s) (ht : exec i s = .next t) :
    CoreInv t := by
  have heff := exec_effect i s
  generalize exec i s = r at heff ht
  cases heff with
  | refused => cases ht
  | idle => cases ht; exact h
  | reset => cases ht; exact coreInv_reset s.trace
  | init =>
    cases ht
    obtain ⟨hq, hcnt⟩ := h
    exact ⟨Queue.clear_wf hq, hcnt⟩
  | send b => cases ht; exact coreInv_requestSend b h
  | inhibit => exact coreInv_execInhibit h ht
  | edge => exact coreInv_execEdge h ht
  | tick c => cases ht; exact coreInv_tickAll c h
  | inhBlock => cases ht; exact coreInv_inhBlock h
  | wrBlock => cases ht; exact coreInv_wrBlock h
  | stBlock _ c => cases ht; exact coreInv_stBlock c h
  | read => exact coreInv_qRead h ht
  | put => exact coreInv_qPut h ht
  | clear =>
    cases ht
    obtain ⟨hq, hcnt⟩ := h
    exact ⟨Queue.clear_wf hq, hcnt⟩
  | rxframe => exact runEdges_keeps (fun _ _ _ _ hs => coreInv_execEdge hs) _ s t h ht
  | txframe _ b =>
    exact execTxframe_keeps (fun _ _ _ _ hs => coreInv_execEdge hs) (fun c _ hs => coreInv_tickAll c hs)
      (coreInv_requestSend b h) ht

theorem exec_ne_fault {s : State} (h : CoreInv s) (i : Instr) (f : Fault) : exec i s ≠ .fault f := by
  intro hf
  have heff := exec_effect i s
  generalize exec i s = r at heff hf
  cases heff with
  | inhibit =>
    unfold execInhibit at hf
    split at hf <;> cases hf
  | edge => exact execEdge_ne_fault h.1 _ _ _ hf
  | read => exact qRead_ne_fault h.1 _ hf
  | put => exact qPut_ne_fault h.1 _ _ hf
  | rxframe => exact runEdges_ne_fault h _ hf
  | txframe => exact execTxframe_ne_fault h _ _ _ _ _ hf
  | _ => cases hf

/-- Settles O58: every step is an operation, and `coreInv_exec` and `exec_ne_fault` hold of each. -/
theorem stepKeepsTheInvariant : Obligations.StepKeepsTheInvariant := by
  unfold Obligations.StepKeepsTheInvariant
  intro s h
  constructor
  · intro f hf
    obtain ⟨_, rest, i, -, -, hexec⟩ := step_eq_fault hf
    exact exec_ne_fault (s := { s with trace := rest }) h i f hexec
  · intro t ht
    rcases step_eq_next ht with ⟨-, rfl⟩ | ⟨_, rest, i, -, -, hexec⟩
    · exact h
    · exact coreInv_exec (s := { s with trace := rest }) h hexec

/-- Settles O59: `CoreInv` holds at reset whatever is requested, and every step keeps it. -/
theorem reachableStatesAreSound : Obligations.ReachableStatesAreSound := by
  unfold Obligations.ReachableStatesAreSound
  intro s hs
  have hinv : CoreInv s := by
    induction hs with
    | reset requests => exact coreInv_reset requests
    | step s t _ ht ih => exact (stepKeepsTheInvariant s ih).2 t ht
  exact ⟨hinv, (stepKeepsTheInvariant s hinv).1⟩

end Sys2Proof.Machine
end

-- Proofs: the invariant of R33 items 5 and 6
section
/-! PROOFS. At most one counter runs, and it runs beside the handler it belongs to, as long as SEND and INIT
are issued in the Receiving role (10_state.md R33, 42_sequencer.md R102). -/

namespace Sys2Proof.Machine

theorem role_eq_receiving_iff (s : State) :
    role s = .receiving ↔ s.armed = .dec ∧ s.inh_cnt = 0#8 ∧ s.wr_cnt = 0#8 ∧ s.st_cnt = 0#8 := by
  unfold role
  cases s.armed <;> grind

/-- The invariant by the armed handler: beside the Decoder at most one of the inhibit and the write-request
phase runs, beside the Encoder only the settle phase. -/
theorem useInv_iff (s : State) :
    UseInv s ↔ (s.armed = .dec ∧ s.st_cnt = 0#8 ∧ (s.inh_cnt = 0#8 ∨ s.wr_cnt = 0#8)) ∨
      (s.armed = .enc ∧ s.inh_cnt = 0#8 ∧ s.wr_cnt = 0#8) := by
  unfold UseInv AtMostOneCounter
  cases s.armed <;> simp <;> tauto

theorem useInv_of_receiving {s : State} (h : role s = .receiving) : UseInv s := by
  obtain ⟨ha, hi, -, hs⟩ := (role_eq_receiving_iff s).mp h
  exact (useInv_iff s).mpr (.inl ⟨ha, hs, .inl hi⟩)

theorem useInv_requestSend (b : Byte) {s : State} (h : role s = .receiving) :
    UseInv (requestSend b s) := by
  obtain ⟨ha, hi, -, hs⟩ := (role_eq_receiving_iff s).mp h
  exact (useInv_iff _).mpr (.inl ⟨ha, hs, .inl hi⟩)

theorem useInv_execInhibit {s t : State} (h : UseInv s) (ht : execInhibit s = .next t) : UseInv t := by
  rcases execInhibit_eq_next ht with ⟨ha, -, hw, hs, rfl⟩ | rfl
  · exact (useInv_iff _).mpr (.inl ⟨ha, hs, .inr hw⟩)
  · exact h

/-! ### The counter blocks -/

theorem useInv_inhBlock {s : State} (h : UseInv s) : UseInv (inhBlock s) := by
  rw [useInv_iff] at h ⊢
  rw [inhBlock_eq]
  rcases h with ⟨ha, hs, hi | hw⟩ | ⟨ha, hi, hw⟩
  · exact .inl ⟨ha, hs, .inl (if_pos hi)⟩
  · exact .inl ⟨ha, hs, .inr hw⟩
  · exact .inr ⟨ha, if_pos hi, hw⟩

/-- The end of the write-request phase arms the Encoder, and then no other counter runs (R103). -/
theorem useInv_wrBlock {s : State} (h : UseInv s) : UseInv (wrBlock s) := by
  rw [useInv_iff] at h ⊢
  rw [wrBlock_eq]
  rcases h with ⟨ha, hs, hc⟩ | ⟨ha, hi, hw⟩
  · by_cases hw : s.wr_cnt = 1#8
    · have hi : s.inh_cnt = 0#8 := hc.resolve_right (by simp [hw])
      exact .inr ⟨if_pos hw, hi, by simp [hw]⟩
    · exact .inl ⟨by simp [hw, ha], hs, hc.imp_right fun h₀ => if_pos h₀⟩
  · exact .inr ⟨by simp [hw, ha], hi, if_pos hw⟩

/-- The end of the settle phase arms the Decoder, and then no counter runs (R105). -/
theorem useInv_stBlock (c : Bool) {s : State} (h : UseInv s) : UseInv (stBlock c s) := by
  rw [useInv_iff] at h ⊢
  rw [stBlock_eq]
  rcases h with ⟨ha, hs, hc⟩ | ⟨ha, hi, hw⟩
  · exact .inl ⟨by simp [hs, ha], if_pos hs, hc⟩
  · by_cases hs : s.st_cnt = 1#8
    · exact .inl ⟨if_pos hs, by simp [hs], .inl hi⟩
    · exact .inr ⟨by simp [hs, ha], hi, hw⟩

theorem useInv_tickAll (c : Bool) {s : State} (h : UseInv s) : UseInv (tickAll c s) :=
  useInv_stBlock c (useInv_wrBlock (useInv_inhBlock h))

/-! ### The edges -/

/-- The Decoder requests the error byte only while no counter runs (R75, R82), and the Encoder starts the
settle phase only while it is armed (R95). -/
theorem useInv_execEdge {d : Bool} {now : Nat} {s t : State} (h : UseInv s)
    (ht : execEdge d now s = .next t) : UseInv t := by
  rcases execEdge_eq_next ht with ⟨ha, hdec⟩ | ⟨ha, rfl⟩
  · rcases decEdge_cases hdec with ⟨-, rfl⟩ | ⟨-, -, _, _, _, _, rfl⟩ | ⟨hc, -, -, rfl⟩ |
      ⟨-, -, -, -, rfl⟩ | ⟨-, -, -, -, _, -, rfl⟩
    · exact h
    · exact h
    · obtain ⟨hi, -, hs⟩ := (countersZero_iff s).mp hc
      exact (useInv_iff _).mpr (.inl ⟨ha, hs, .inl hi⟩)
    · exact h
    · exact h
  · rcases encEdge_cases d s with ⟨-, he⟩ | ⟨-, -, _, _, _, _, he⟩ | ⟨-, -, he⟩ <;> rw [he]
    · exact h
    · exact h
    · rw [useInv_iff] at h ⊢
      exact .inr (h.resolve_left fun hdec => by simp [ha] at hdec)

/-! ### Every operation -/

/-- Settles O60: every shared operation keeps `UseInv`; SEND, INIT and TXFRAME need the Receiving role. -/
theorem useInRoleKeepsCountersExclusive : Obligations.UseInRoleKeepsCountersExclusive := by
  unfold Obligations.UseInRoleKeepsCountersExclusive
  intro i s t h hrole ht
  have heff := exec_effect i s
  generalize exec i s = r at heff ht
  cases heff with
  | refused => cases ht
  | idle => cases ht; exact h
  | reset => cases ht; exact useInv_of_receiving rfl
  | init =>
    cases ht
    obtain ⟨-, hcnt⟩ := (role_eq_receiving_iff s).mp hrole
    exact useInv_of_receiving ((role_eq_receiving_iff _).mpr ⟨rfl, hcnt⟩)
  | send b => cases ht; exact useInv_requestSend b hrole
  | inhibit => exact useInv_execInhibit h ht
  | edge => exact useInv_execEdge h ht
  | tick c => cases ht; exact useInv_tickAll c h
  | inhBlock => cases ht; exact useInv_inhBlock h
  | wrBlock => cases ht; exact useInv_wrBlock h
  | stBlock _ c => cases ht; exact useInv_stBlock c h
  | read => rcases qRead_eq_next ht with ⟨-, rfl⟩ | ⟨_, _, -, -, rfl⟩ <;> exact h
  | put => rcases qPut_eq_next ht with ⟨-, rfl⟩ | ⟨-, _, -, rfl⟩ <;> exact h
  | clear => cases ht; exact h
  | rxframe => exact runEdges_keeps (fun _ _ _ _ hs => useInv_execEdge hs) _ s t h ht
  | txframe _ b =>
    exact execTxframe_keeps (fun _ _ _ _ hs => useInv_execEdge hs) (fun c _ hs => useInv_tickAll c hs)
      (useInv_requestSend b hrole) ht

end Sys2Proof.Machine
end

-- Proofs: who writes an element
section
/-! PROOFS. Which operations write `armed`, `timer_cfg` and the slots, what the interface's operations leave
unchanged, and the small facts about reset, idle steps, faults and the settle hold (10_state.md R11, R25,
R29 to R34). -/

namespace Sys2Proof.Machine

/-! ### Frames of the shared operations -/

/-- An edge writes neither `armed` nor `timer_cfg` (R11, R34). -/
theorem execEdge_frame {d : Bool} {now : Nat} {s t : State} (h : execEdge d now s = .next t) :
    t.armed = s.armed ∧ t.timer_cfg = s.timer_cfg := by
  rcases execEdge_eq_next h with ⟨-, hdec⟩ | ⟨-, rfl⟩
  · rcases decEdge_cases hdec with ⟨-, rfl⟩ | ⟨-, -, _, _, _, _, rfl⟩ | ⟨-, -, -, rfl⟩ |
      ⟨-, -, -, -, rfl⟩ | ⟨-, -, -, -, _, -, rfl⟩ <;> exact ⟨rfl, rfl⟩
  · rcases encEdge_cases d s with ⟨-, he⟩ | ⟨-, -, _, _, _, _, he⟩ | ⟨-, -, he⟩ <;>
      rw [he] <;> exact ⟨rfl, rfl⟩

theorem qPut_frame {b : Byte} {s t : State} (h : qPut b s = .next t) :
    t.armed = s.armed ∧ t.timer_cfg = s.timer_cfg := by
  rcases qPut_eq_next h with ⟨-, rfl⟩ | ⟨-, _, -, rfl⟩ <;> exact ⟨rfl, rfl⟩

/-- A READ writes its outputs and the cursors (R34, log 2). -/
theorem qRead_frame {s t : State} (h : qRead s = .next t) :
    t.queue.q_slot = s.queue.q_slot ∧
      t = { s with read_ok := t.read_ok, read_byte := t.read_byte, queue := t.queue } := by
  rcases qRead_eq_next h with ⟨-, rfl⟩ | ⟨a, _, -, -, rfl⟩
  · exact ⟨rfl, rfl⟩
  · exact ⟨Queue.advance_slots a s.queue, rfl⟩

/-- INHIBIT writes its counter (R34). -/
theorem execInhibit_frame {s t : State} (h : execInhibit s = .next t) :
    t = { s with inh_cnt := t.inh_cnt } := by
  rcases execInhibit_eq_next h with ⟨-, -, -, -, rfl⟩ | rfl <;> rfl

/-! ### `timer_cfg` -/

@[simp] theorem inhBlock_timer_cfg (s : State) : (inhBlock s).timer_cfg = s.timer_cfg := by
  rw [inhBlock_eq]

@[simp] theorem wrBlock_timer_cfg (s : State) : (wrBlock s).timer_cfg = s.timer_cfg := by
  rw [wrBlock_eq]

@[simp] theorem stBlock_timer_cfg (c : Bool) (s : State) : (stBlock c s).timer_cfg = s.timer_cfg := by
  rw [stBlock_eq]

@[simp] theorem tickAll_timer_cfg (c : Bool) (s : State) : (tickAll c s).timer_cfg = s.timer_cfg := by
  simp [tickAll]

theorem exec_timer_cfg {i : Instr} {s t : State} (h : exec i s = .next t) (hinit : i ≠ .init)
    (hreset : i ≠ .reset) : t.timer_cfg = s.timer_cfg := by
  have heff := exec_effect i s
  generalize exec i s = r at heff h
  have hedges : ∀ d now u v, u.timer_cfg = s.timer_cfg → execEdge d now u = .next v →
      v.timer_cfg = s.timer_cfg := fun _ _ _ _ hu he => (execEdge_frame he).2.trans hu
  cases heff with
  | refused => cases h
  | idle => cases h; rfl
  | reset => exact absurd rfl hreset
  | init => exact absurd rfl hinit
  | send => cases h; rfl
  | inhibit => rw [execInhibit_frame h]
  | edge => exact hedges _ _ s t rfl h
  | tick c => cases h; exact tickAll_timer_cfg c s
  | inhBlock => cases h; exact inhBlock_timer_cfg s
  | wrBlock => cases h; exact wrBlock_timer_cfg s
  | stBlock _ c => cases h; exact stBlock_timer_cfg c s
  | read => rw [(qRead_frame h).2]
  | put => exact (qPut_frame h).2
  | clear => cases h; rfl
  | rxframe => exact runEdges_keeps hedges _ s t rfl h
  | txframe =>
    exact execTxframe_keeps hedges (fun c u hu => (tickAll_timer_cfg c u).trans hu) rfl h

/-- Settles O48: INIT and RESET by their definitions, the others by `exec_timer_cfg`. -/
theorem timerFlagIsWrittenOnlyByInitAndReset : Obligations.TimerFlagIsWrittenOnlyByInitAndReset := by
  unfold Obligations.TimerFlagIsWrittenOnlyByInitAndReset
  intro i s t h
  refine ⟨?_, ?_, exec_timer_cfg h⟩
  · rintro rfl
    cases h
    rfl
  · rintro rfl
    cases h
    rfl

/-- Settles O49: one frame lemma for each operation. -/
theorem operationsKeepToTheirElements : Obligations.OperationsKeepToTheirElements := by
  unfold Obligations.OperationsKeepToTheirElements
  refine ⟨fun s t h => qRead_frame h, ?_, ?_, fun s t h => execInhibit_frame h, ?_, ?_⟩
  · intro s t h
    cases h
    exact ⟨rfl, rfl⟩
  · intro b s t h
    cases h
    rfl
  · exact fun _ _ _ _ h => (execEdge_frame h).2
  · intro c s t h
    cases h
    exact tickAll_timer_cfg c s

/-! ### `armed` -/

theorem inhBlock_armed (s : State) : (inhBlock s).armed = s.armed := by
  rw [inhBlock_eq]

theorem inhBlock_wr_cnt (s : State) : (inhBlock s).wr_cnt = s.wr_cnt := by
  rw [inhBlock_eq]

theorem inhBlock_st_cnt (s : State) : (inhBlock s).st_cnt = s.st_cnt := by
  rw [inhBlock_eq]

/-- The write block arms the Encoder on the last tick of its phase (R103). -/
theorem wrBlock_armed (s : State) :
    (wrBlock s).armed = if s.wr_cnt = 1#8 then .enc else s.armed := by
  rw [wrBlock_eq]

theorem wrBlock_st_cnt (s : State) : (wrBlock s).st_cnt = s.st_cnt := by
  rw [wrBlock_eq]

/-- The settle block arms the Decoder on the last tick of its phase (R105). -/
theorem stBlock_armed (c : Bool) (s : State) :
    (stBlock c s).armed = if s.st_cnt = 1#8 then .dec else s.armed := by
  rw [stBlock_eq]

theorem tickAll_armed (c : Bool) (s : State) :
    (tickAll c s).armed =
      if s.st_cnt = 1#8 then .dec else if s.wr_cnt = 1#8 then .enc else s.armed := by
  rw [tickAll, stBlock_armed, wrBlock_st_cnt, inhBlock_st_cnt, wrBlock_armed, inhBlock_wr_cnt,
    inhBlock_armed]

/-- Settles O47: of the shared operations only the ends of the two phases write `armed`, beside RESET, INIT
and the frame that contains such ends. -/
theorem armedIsWrittenOnlyAtPhaseEnds : Obligations.ArmedIsWrittenOnlyAtPhaseEnds := by
  unfold Obligations.ArmedIsWrittenOnlyAtPhaseEnds
  intro i s t h hne
  have heff := exec_effect i s
  generalize exec i s = r at heff h
  cases heff with
  | refused => cases h
  | idle => cases h; exact absurd rfl hne
  | reset => cases h; exact .inl ⟨rfl, .inl rfl⟩
  | init => cases h; exact .inl ⟨rfl, .inr (.inl rfl)⟩
  | send => cases h; exact absurd rfl hne
  | inhibit => exact absurd (by rw [execInhibit_frame h]) hne
  | edge => exact absurd (execEdge_frame h).1 hne
  | tick c =>
    cases h
    rw [tickAll_armed] at hne ⊢
    split_ifs at hne ⊢ with hs hw
    · exact .inl ⟨rfl, .inr (.inr (.inl ⟨hs, .inr ⟨c, rfl⟩⟩))⟩
    · exact .inr ⟨rfl, .inl ⟨hw, .inr ⟨c, rfl⟩⟩⟩
    · exact absurd rfl hne
  | inhBlock => cases h; exact absurd (inhBlock_armed s) hne
  | wrBlock _ hi =>
    cases h
    rw [wrBlock_armed] at hne ⊢
    split_ifs at hne ⊢ with hw
    · exact .inr ⟨rfl, .inl ⟨hw, .inl (hi hw)⟩⟩
    · exact absurd rfl hne
  | stBlock _ c hi =>
    cases h
    rw [stBlock_armed] at hne ⊢
    split_ifs at hne ⊢ with hs
    · exact .inl ⟨rfl, .inr (.inr (.inl ⟨hs, .inl (hi hs)⟩))⟩
    · exact absurd rfl hne
  | read => exact absurd (by rw [(qRead_frame h).2]) hne
  | put => exact absurd (qPut_frame h).1 hne
  | clear => cases h; exact absurd rfl hne
  | rxframe =>
    exact absurd (runEdges_keeps (P := fun u => u.armed = s.armed)
      (fun _ _ _ _ hu he => (execEdge_frame he).1.trans hu) _ s t rfl h) hne
  | txframe a b now gap =>
    cases ha : t.armed with
    | dec => exact .inl ⟨rfl, .inr (.inr (.inr ⟨a, b, now, gap, rfl⟩))⟩
    | enc => exact .inr ⟨rfl, .inr ⟨a, b, now, gap, rfl⟩⟩

/-! ### The slots -/

theorem inhBlock_queue (s : State) : (inhBlock s).queue = s.queue := by
  rw [inhBlock_eq]

theorem wrBlock_queue (s : State) : (wrBlock s).queue = s.queue := by
  rw [wrBlock_eq]

theorem stBlock_queue (c : Bool) (s : State) : (stBlock c s).queue = s.queue := by
  rw [stBlock_eq]

theorem tickAll_queue (c : Bool) (s : State) : (tickAll c s).queue = s.queue := by
  rw [tickAll, stBlock_queue, wrBlock_queue, inhBlock_queue]

theorem storeSlot_eq_of_read_ne {m a : Nat} {b : Byte} {q q' : Queue (m + 1)}
    (h : q.store b = some q') (hne : q'.q_slot.read a ≠ q.q_slot.read a) :
    q.storeSlot.map Fin.val = some a :=
  by_contra fun hslot => hne (Queue.store_read h hslot)

theorem qPut_slots {b : Byte} {s t : State} {a : Nat} (h : qPut b s = .next t)
    (hne : t.queue.q_slot.read a ≠ s.queue.q_slot.read a) :
    s.queue.storeSlot.map Fin.val = some a ∧ s.queue.isFull = false := by
  rcases qPut_eq_next h with ⟨-, rfl⟩ | ⟨hf, q, hq, rfl⟩
  · exact absurd rfl hne
  · exact ⟨storeSlot_eq_of_read_ne hq hne, hf⟩

/-- An edge changes a slot only at the end of a valid frame (R80, R81). -/
theorem execEdge_slots {d : Bool} {now : Nat} {s t : State} {a : Nat} (h : execEdge d now s = .next t)
    (hne : t.queue.q_slot.read a ≠ s.queue.q_slot.read a) :
    s.queue.storeSlot.map Fin.val = some a ∧ s.queue.isFull = false ∧ s.armed = .dec ∧
      countersZero s = true ∧ (guardedPos now s).val = 10 := by
  rcases execEdge_eq_next h with ⟨ha, hdec⟩ | ⟨-, rfl⟩
  · rcases decEdge_cases hdec with ⟨-, rfl⟩ | ⟨-, -, _, _, _, _, rfl⟩ | ⟨-, -, -, rfl⟩ |
      ⟨-, -, -, -, rfl⟩ | ⟨hc, hp, -, hf, q, hq, rfl⟩
    · exact absurd rfl hne
    · exact absurd rfl hne
    · exact absurd rfl hne
    · exact absurd rfl hne
    · exact ⟨storeSlot_eq_of_read_ne hq hne, hf, ha, hc, hp⟩
  · rcases encEdge_cases d s with ⟨-, he⟩ | ⟨-, -, _, _, _, _, he⟩ | ⟨-, -, he⟩ <;>
      rw [he] at hne <;> exact absurd rfl hne

/-- At position 10 the Decoder's sub-operation is DEC.STOP (R64). -/
theorem edgeSub_eq_decStop {d : Bool} {now : Nat} {s : State} (ha : s.armed = .dec)
    (hc : countersZero s = true) (hp : (guardedPos now s).val = 10) :
    edgeSub d now s = .decStop d now := by
  simp [edgeSub, ha, hc, hp]

/-- Settles O51: `qPut_slots` and `execEdge_slots` name the two shared operations that write a slot. -/
theorem slotsAreWrittenOnlyByAPut : Obligations.SlotsAreWrittenOnlyByAPut := by
  unfold Obligations.SlotsAreWrittenOnlyByAPut
  intro i s t a h hreset hrx htx hne
  have heff := exec_effect i s
  generalize exec i s = r at heff h
  have changed : t.queue.q_slot ≠ s.queue.q_slot := fun hq => hne (by rw [hq])
  cases heff with
  | refused => cases h
  | idle => cases h; exact absurd rfl changed
  | reset => exact absurd rfl hreset
  | init => cases h; exact absurd rfl changed
  | send => cases h; exact absurd rfl changed
  | inhibit => exact absurd (by rw [execInhibit_frame h]) changed
  | edge _ d now hi =>
    obtain ⟨hslot, hf, ha, hc, hp⟩ := execEdge_slots h hne
    refine ⟨hslot, hf, .inr ?_⟩
    rcases hi with rfl | rfl
    · exact .inr ⟨d, now, rfl, ha, hp⟩
    · exact .inl ⟨d, now, edgeSub_eq_decStop ha hc hp⟩
  | tick c => cases h; exact absurd (by rw [tickAll_queue]) changed
  | inhBlock => cases h; exact absurd (by rw [inhBlock_queue]) changed
  | wrBlock => cases h; exact absurd (by rw [wrBlock_queue]) changed
  | stBlock => cases h; exact absurd (by rw [stBlock_queue]) changed
  | read => exact absurd (qRead_frame h).1 changed
  | put _ b hi =>
    obtain ⟨hslot, hf⟩ := qPut_slots h hne
    exact ⟨hslot, hf, .inl ⟨b, hi hf⟩⟩
  | clear => cases h; exact absurd rfl changed
  | rxframe f now gap => exact absurd rfl (hrx f now gap)
  | txframe ack b now gap => exact absurd rfl (htx b now gap ack)

/-! ### Reset, idle steps, faults, the settle hold -/

/-- Settles O57: the queue is empty and no counter runs. -/
theorem invariantsHoldAtReset : Obligations.InvariantsHoldAtReset :=
  ⟨coreInv_reset [], useInv_of_receiving rfl⟩

/-- Settles O2, by the branch of `step` for an empty trace. -/
theorem stepWithoutARequestChangesNothing : Obligations.StepWithoutARequestChangesNothing := by
  unfold Obligations.StepWithoutARequestChangesNothing
  intro s h
  simp [step, h]

/-- Settles O14: the READ reaches `readByte` with no byte to answer, the put has no slot to store to. -/
theorem faultsWhereASlotIsMissing : Obligations.FaultsWhereASlotIsMissing := by
  unfold Obligations.FaultsWhereASlotIsMissing
  constructor
  · intro s a ha hread
    exact (qRead_of_head ha).trans (by simp [readByte, hread])
  · intro b s hh ht
    obtain ⟨a, ha⟩ := Option.ne_none_iff_exists'.mp hh
    have hf : s.queue.isFull = false := by simp [Queue.isFull, ha, ht]
    have hslot : s.queue.storeSlot = none := (Queue.storeSlot_of_head ha).trans ht
    simp [exec, execQPutStore, hf, putStore, Queue.store, hslot]

/-- Settles O56: the clock reads low, so the hold of the settle phase does not drive it again (R104). -/
theorem settleHoldKeepsADrivenClock : Obligations.SettleHoldKeepsADrivenClock := by
  unfold Obligations.SettleHoldKeepsADrivenClock
  rintro c s ⟨hlow, -⟩ hclk hst hi hw
  have hinh : inhBlock s = s := if_pos hi
  have hwr : wrBlock s = s := if_pos hw
  obtain rfl : c = false := hlow hclk
  simp [exec, execTick, tickAll, hinh, hwr, stBlock_of_one_lt false hst, stHold]

end Sys2Proof.Machine
end

-- Proofs: one step, one requested operation
section
/-! PROOFS. A step performs the operation of the next requested line, on the state that is left when the
line is taken off the requests (20_memory.md R46). -/

namespace Sys2Proof.Machine

/-- Settles O1, by the branch of `step` for a pending line that names an operation. -/
theorem stepPerformsTheRequestedOperation : Obligations.StepPerformsTheRequestedOperation := by
  unfold Obligations.StepPerformsTheRequestedOperation
  intro s line rest i htrace hdecode
  simp only [step, htrace, hdecode]

end Sys2Proof.Machine
end

-- Proofs: the frame words
section
/-! PROOFS. The bits of a frame word, and which words are the frame of a byte (30_encoding.md R56, R58,
R65). -/

namespace Sys2Proof.Machine

/-! ### Device to host -/

theorem bitWord_getLsbD {n : Nat} (x : Bool) (i : Nat) :
    (bitWord (n + 1) x).getLsbD i = (decide (i = 0) && x) := by
  cases x <;> simp [bitWord]

/-- The frame of a byte position by position: start bit, data bits, parity bit, stop bit (R56). -/
theorem frameOf_getLsbD (b : Byte) {i : Nat} (hi : i < 11) :
    (frameOf b).getLsbD i =
      if i = 0 then false else if i ≤ 8 then b.getLsbD (i - 1) else if i = 9 then oddpar b else true := by
  simp only [frameOf, BitVec.getLsbD_or, BitVec.getLsbD_shiftLeft, bitWord_getLsbD, BitVec.getLsbD_setWidth]
  interval_cases i <;> simp

theorem frameOf_start (b : Byte) : (frameOf b).getLsbD 0 = false :=
  frameOf_getLsbD b (i := 0) (by decide)

theorem frameOf_parity (b : Byte) : (frameOf b).getLsbD 9 = oddpar b :=
  frameOf_getLsbD b (i := 9) (by decide)

theorem frameOf_stop (b : Byte) : (frameOf b).getLsbD 10 = true :=
  frameOf_getLsbD b (i := 10) (by decide)

theorem frameByte_frameOf (b : Byte) : frameByte (frameOf b) = b := by
  refine BitVec.eq_of_getLsbD_eq fun i hi => ?_
  rw [frameByte, BitVec.getLsbD_extractLsb', frameOf_getLsbD b (by omega)]
  simp [hi, show 1 + i ≤ 8 by omega]

/-- Odd parity over positions 1 to 9 makes position 9 the parity bit of the byte. -/
theorem frameParity_eq_true_iff (f : Frame11) :
    frameParity f = true ↔ oddpar (frameByte f) = f.getLsbD 9 := by
  simp only [oddpar, frameByte, frameParity, BitVec.getLsbD_extractLsb']
  generalize f.getLsbD 9 = p
  cases p <;> simp

theorem validFrame_frameOf (b : Byte) : validFrame (frameOf b) = true := by
  have hpar : frameParity (frameOf b) = true := by
    rw [frameParity_eq_true_iff, frameByte_frameOf, frameOf_parity]
  rw [validFrame, frameOf_start, frameOf_stop, hpar]
  rfl

theorem eq_frameOf_of_validFrame {f : Frame11} (h : validFrame f = true) : f = frameOf (frameByte f) := by
  simp only [validFrame, Bool.and_eq_true, Bool.not_eq_true', frameParity_eq_true_iff] at h
  obtain ⟨⟨hstart, hstop⟩, hpar⟩ := h
  refine BitVec.eq_of_getLsbD_eq fun i hi => ?_
  rw [frameOf_getLsbD _ hi, hpar]
  split_ifs with h₀ h₈ h₉
  · rw [h₀, hstart]
  · simp [frameByte, show i - 1 < 8 by omega, show 1 + (i - 1) = i by omega]
  · rw [h₉]
  · rw [show i = 10 by omega, hstop]

/-- Settles O7: a valid word is the frame of the byte it carries. -/
theorem validFramesAreTheFramesOfBytes : Obligations.ValidFramesAreTheFramesOfBytes := by
  unfold Obligations.ValidFramesAreTheFramesOfBytes
  refine ⟨fun f => ⟨fun h => ⟨_, eq_frameOf_of_validFrame h⟩, ?_⟩, frameByte_frameOf, frameOf_parity⟩
  rintro ⟨b, rfl⟩
  exact validFrame_frameOf b

/-! ### Host to device -/

theorem txWord_eq_append (a : Bool) (b : Byte) : txWord a b = BitVec.ofBool a ++ frameOf b := by
  refine BitVec.eq_of_getLsbD_eq fun i hi => ?_
  simp only [txWord, BitVec.getLsbD_or, BitVec.getLsbD_shiftLeft, bitWord_getLsbD, BitVec.getLsbD_setWidth,
    BitVec.getLsbD_append, BitVec.getLsbD_ofBool]
  by_cases h : i < 11
  · simp [h, hi]
  · obtain rfl : i = 11 := by omega
    simp

theorem txWord_frame (a : Bool) (b : Byte) : (txWord a b).extractLsb' 0 11 = frameOf b := by
  rw [txWord_eq_append]
  exact BitVec.extractLsb'_append_eq_right

theorem txWord_byte (a : Bool) (b : Byte) : (txWord a b).extractLsb' 1 8 = b := by
  rw [txWord_eq_append, BitVec.extractLsb'_append_eq_of_add_le (by decide)]
  exact frameByte_frameOf b

theorem txWord_ack (a : Bool) (b : Byte) : (txWord a b).getLsbD 11 = a := by
  rw [txWord_eq_append, BitVec.getLsbD_append]
  simp

theorem eq_txWord_of_frame {f : Frame12} (h : f.extractLsb' 0 11 = frameOf (f.extractLsb' 1 8)) :
    f = txWord (f.getLsbD 11) (f.extractLsb' 1 8) := by
  have hack : BitVec.ofBool (f.getLsbD 11) = f.extractLsb' 11 1 := by
    rw [BitVec.getLsbD_eq_extractLsb']
    generalize f.extractLsb' 11 1 = a
    revert a
    decide
  rw [txWord_eq_append, ← h, hack]
  exact (BitVec.extractLsb'_append_extractLsb' (w := 1) (len := 11) (x := f)).symm

theorem decode_txWord (a : Bool) (b : Byte) (now gap : Nat) :
    decode (.frame12 (txWord a b) now gap) = .ok (.txframe a b now gap) := by
  rw [decode, txWord_frame, txWord_byte, txWord_ack, if_pos rfl]

theorem decode_frame12_eq_ok {f : Frame12} {now gap : Nat} {i : Instr}
    (h : decode (.frame12 f now gap) = .ok i) : ∃ a b, f = txWord a b ∧ i = .txframe a b now gap := by
  rw [decode] at h
  split_ifs at h with hf
  exact ⟨_, _, eq_txWord_of_frame hf, (Except.ok.inj h).symm⟩

end Sys2Proof.Machine
end

-- Proofs: the trace words
section
/-! PROOFS. The fields of a trace word, the decoder code by code, and that decoding and encoding are inverse
to each other on the canonical lines (30_encoding.md R63, R65, R66). -/

namespace Sys2Proof.Machine

/-! ### The fields of a word the encoder builds -/

theorem opWord_code (op : BitVec 4) (fields : BitVec 12) : (opWord op fields).extractLsb' 12 4 = op :=
  BitVec.extractLsb'_append_eq_left

theorem opWord_bitField (op : BitVec 4) (x : Bool) {k : Nat} (h : k < 12) :
    (opWord op (bitWord 12 x <<< k)).getLsbD k = x := by
  rw [opWord, BitVec.getLsbD_append, if_pos h, BitVec.getLsbD_shiftLeft, bitWord_getLsbD]
  simp [h]

theorem opWord_byteField (op : BitVec 4) (b : Byte) :
    (opWord op (b.setWidth 12)).extractLsb' 0 8 = b := by
  rw [opWord, BitVec.extractLsb'_append_eq_of_add_le (by decide),
    BitVec.extractLsb'_setWidth_of_le (by decide), BitVec.extractLsb'_eq_self]

/-! ### The decoder, code by code -/

section Codes

variable {w : TraceWord} {now : Nat}

theorem decodeWord_reset (h : (w.extractLsb' 12 4).toNat = 0) : decodeWord w now = .ok .reset := by
  simp only [decodeWord, h]

theorem decodeWord_init (h : (w.extractLsb' 12 4).toNat = 1) : decodeWord w now = .ok .init := by
  simp only [decodeWord, h]

theorem decodeWord_edge (h : (w.extractLsb' 12 4).toNat = 2) :
    decodeWord w now = .ok (.edge (w.getLsbD 8) now) := by
  simp only [decodeWord, h]

theorem decodeWord_tick (h : (w.extractLsb' 12 4).toNat = 3) :
    decodeWord w now = .ok (.tick (w.getLsbD 9)) := by
  simp only [decodeWord, h]

theorem decodeWord_send (h : (w.extractLsb' 12 4).toNat = 4) :
    decodeWord w now = .ok (.send (w.extractLsb' 0 8)) := by
  simp only [decodeWord, h]

theorem decodeWord_read (h : (w.extractLsb' 12 4).toNat = 5) : decodeWord w now = .ok .read := by
  simp only [decodeWord, h]

theorem decodeWord_inhibit (h : (w.extractLsb' 12 4).toNat = 6) : decodeWord w now = .ok .inhibit := by
  simp only [decodeWord, h]

theorem decodeWord_reserved (h : 7 ≤ (w.extractLsb' 12 4).toNat) :
    decodeWord w now = .error (.reservedWord w) := by
  obtain ⟨k, hk⟩ := Nat.exists_eq_add_of_le' h
  simp only [decodeWord, hk]

theorem exists_decodeWord (h : (w.extractLsb' 12 4).toNat ≤ 6) : ∃ i, decodeWord w now = .ok i := by
  unfold decodeWord
  generalize (w.extractLsb' 12 4).toNat = op at h
  interval_cases op <;> exact ⟨_, rfl⟩

end Codes

/-- Settles O5: the fields come back from the word they were put in, the byte and the acknowledgment level
from their frame. -/
theorem decodeOfEncodeIsTheOperation : Obligations.DecodeOfEncodeIsTheOperation := by
  unfold Obligations.DecodeOfEncodeIsTheOperation
  intro i hi
  cases i with
  | reset => exact ⟨_, rfl, rfl⟩
  | init => exact ⟨_, rfl, rfl⟩
  | edge d now =>
    refine ⟨_, rfl, (decodeWord_edge ?_).trans ?_⟩
    · rw [opWord_code]; rfl
    · rw [opWord_bitField _ _ (by decide)]
  | tick c =>
    refine ⟨_, rfl, (decodeWord_tick ?_).trans ?_⟩
    · rw [opWord_code]; rfl
    · rw [opWord_bitField _ _ (by decide)]
  | send b =>
    refine ⟨_, rfl, (decodeWord_send ?_).trans ?_⟩
    · rw [opWord_code]; rfl
    · rw [opWord_byteField]
  | read => exact ⟨_, rfl, rfl⟩
  | inhibit => exact ⟨_, rfl, rfl⟩
  | rxframe f now gap => exact ⟨_, rfl, rfl⟩
  | txframe a b now gap => exact ⟨_, rfl, decode_txWord a b now gap⟩
  | _ => exact absurd hi Bool.false_ne_true

/-! ### Bits that are not used -/

theorem getLsbD_eq_of_and_eq {n i : Nat} {w v m : BitVec n} (h : w &&& m = v &&& m)
    (hm : m.getLsbD i = true) : w.getLsbD i = v.getLsbD i := by
  have hi := congrArg (BitVec.getLsbD · i) h
  simpa only [BitVec.getLsbD_and, hm, Bool.and_true] using hi

theorem extractLsb'_eq_of_and_eq {n start len : Nat} {w v m : BitVec n} (h : w &&& m = v &&& m)
    (hm : ∀ i < len, m.getLsbD (start + i) = true) : w.extractLsb' start len = v.extractLsb' start len := by
  refine BitVec.eq_of_getLsbD_eq fun i hi => ?_
  rw [BitVec.getLsbD_extractLsb', BitVec.getLsbD_extractLsb', getLsbD_eq_of_and_eq h (hm i hi)]

/-- The decoder reads the code and the bits that the code uses, no other bit (R66). -/
theorem decodeWord_congr {w v : TraceWord} (now : Nat) (hop : (w.extractLsb' 12 4).toNat ≤ 6)
    (h : w &&& (0xF000 ||| usedBits (w.extractLsb' 12 4).toNat) =
      v &&& (0xF000 ||| usedBits (w.extractLsb' 12 4).toNat)) :
    decodeWord w now = decodeWord v now := by
  have hcode : w.extractLsb' 12 4 = v.extractLsb' 12 4 := extractLsb'_eq_of_and_eq h fun i hi => by
    rw [BitVec.getLsbD_or]
    interval_cases i <;> rfl
  have hv : (v.extractLsb' 12 4).toNat = (w.extractLsb' 12 4).toNat := by rw [hcode]
  generalize hw : (w.extractLsb' 12 4).toNat = op at h hop hv
  interval_cases op
  · rw [decodeWord_reset hw, decodeWord_reset hv]
  · rw [decodeWord_init hw, decodeWord_init hv]
  · rw [decodeWord_edge hw, decodeWord_edge hv, getLsbD_eq_of_and_eq (i := 8) h rfl]
  · rw [decodeWord_tick hw, decodeWord_tick hv, getLsbD_eq_of_and_eq (i := 9) h rfl]
  · rw [decodeWord_send hw, decodeWord_send hv,
      extractLsb'_eq_of_and_eq (start := 0) (len := 8) h (by decide)]
  · rw [decodeWord_read hw, decodeWord_read hv]
  · rw [decodeWord_inhibit hw, decodeWord_inhibit hv]

/-- Settles O3: `step` refuses what the decoder rejects, and the decoder reads no unused bit. -/
theorem reservedCodesAreRefusedUnusedBitsIgnored :
    Obligations.ReservedCodesAreRefusedUnusedBitsIgnored := by
  unfold Obligations.ReservedCodesAreRefusedUnusedBitsIgnored
  refine ⟨fun w now s rest hop hs => ?_, fun w v now hop h => decodeWord_congr now hop h,
    fun w now hop => decodeWord_send hop, fun f now gap s rest hf hs => ?_⟩
  · simp only [step, hs, decode, decodeWord_reserved hop, refusalOf]
  · simp only [step, hs, decode, if_neg hf, refusalOf]

/-! ### Canonical lines -/

/-- Every line the encoder gives is canonical: the per-operation statements of Laws/PerInstr.lean. -/
theorem encode_canonical (i : Instr) : Laws.Encoding.Statement i := by
  cases i with
  | reset => exact Laws.Encoding.reset
  | init => exact Laws.Encoding.init
  | edge d now => exact Laws.Encoding.edge d now
  | tick c => exact Laws.Encoding.tick c
  | send b => exact Laws.Encoding.send b
  | read => exact Laws.Encoding.read
  | inhibit => exact Laws.Encoding.inhibit
  | rxframe f now gap => exact Laws.Encoding.rxframe f now gap
  | txframe a b now gap => exact Laws.Encoding.txframe a b now gap
  | _ => exact Laws.Encoding.statement_of_none rfl

theorem canonical_word_iff {w : TraceWord} {now : Nat} :
    (TraceLine.word w now).canonical = true ↔ (w.extractLsb' 12 4).toNat ≤ 6 ∧
      w &&& 0x0FFF &&& ~~~usedBits (w.extractLsb' 12 4).toNat = 0 ∧
      ((w.extractLsb' 12 4).toNat = 2 ∨ now = 0) := by
  simp [TraceLine.canonical, and_assoc]

/-- A word whose bits outside the code and the mask `m` are 0 is its code and its bits in `m`. -/
theorem eq_opWord_of_unused {w m : TraceWord} (h : w &&& 0x0FFF &&& ~~~m = 0) :
    w = opWord (w.extractLsb' 12 4) ((w &&& m).extractLsb' 0 12) := by
  have hfields : w.extractLsb' 0 12 = (w &&& m).extractLsb' 0 12 := by
    refine BitVec.eq_of_getLsbD_eq fun i hi => ?_
    have hlow : (0x0FFF : TraceWord).getLsbD i = true := by interval_cases i <;> rfl
    have hbit := congrArg (BitVec.getLsbD · i) h
    simp only [BitVec.getLsbD_and, BitVec.getLsbD_not, hlow, show i < 16 by omega] at hbit
    simp only [BitVec.getLsbD_extractLsb', BitVec.getLsbD_and, Nat.zero_add]
    cases hm : m.getLsbD i <;> simp_all
  rw [← hfields]
  exact (BitVec.extractLsb'_append_extractLsb' (w := 4) (len := 12) (x := w)).symm

section Canonical

variable {w : TraceWord} {now k : Nat}

theorem eq_opWord_of_canonical (hc : (TraceLine.word w now).canonical = true)
    (hop : (w.extractLsb' 12 4).toNat = k) :
    w = opWord (BitVec.ofNat 4 k) ((w &&& usedBits k).extractLsb' 0 12) := by
  obtain ⟨-, hunused, -⟩ := canonical_word_iff.mp hc
  rw [← hop, BitVec.ofNat_toNat, BitVec.setWidth_eq]
  exact eq_opWord_of_unused hunused

/-- A canonical word of an operation without a field is its code alone, with time 0. -/
theorem encode_of_no_field {i : Instr} (hc : (TraceLine.word w now).canonical = true)
    (hop : (w.extractLsb' 12 4).toNat = k) (hk : usedBits k = 0#16) (hedge : k ≠ 2)
    (hi : encode i = some (.word (opWord (BitVec.ofNat 4 k) 0#12) 0)) : encode i = some (.word w now) := by
  obtain ⟨-, -, hnow⟩ := canonical_word_iff.mp hc
  have hw := eq_opWord_of_canonical hc hop
  rw [hk, BitVec.and_zero, BitVec.extractLsb'_zero] at hw
  rw [hi, ← hw, hnow.resolve_left (hop ▸ hedge)]

end Canonical

theorem bitField_of_and (w : TraceWord) {k : Nat} (hk : k < 12) :
    (w &&& BitVec.twoPow 16 k).extractLsb' 0 12 = bitWord 12 (w.getLsbD k) <<< k := by
  rw [BitVec.and_twoPow]
  cases w.getLsbD k with
  | true => interval_cases k <;> rfl
  | false => simp [bitWord]

theorem byteField_of_and (w : TraceWord) :
    (w &&& 0x00FF).extractLsb' 0 12 = (w.extractLsb' 0 8).setWidth 12 := by
  refine BitVec.eq_of_getLsbD_eq fun i hi => ?_
  have hlow : (0x00FF : TraceWord).getLsbD i = decide (i < 8) := by interval_cases i <;> rfl
  simp only [BitVec.getLsbD_extractLsb', BitVec.getLsbD_and, BitVec.getLsbD_setWidth, Nat.zero_add, hlow, hi]
  rw [Bool.and_comm (w.getLsbD i)]

/-- A canonical word is built by `opWord` from its code and its fields, as the encoder builds it. -/
theorem encode_of_decodeWord {w : TraceWord} {now : Nat} {i : Instr}
    (hc : (TraceLine.word w now).canonical = true) (hd : decodeWord w now = .ok i) :
    encode i = some (.word w now) := by
  obtain ⟨hle, -, hnow⟩ := canonical_word_iff.mp hc
  generalize hop : (w.extractLsb' 12 4).toNat = op at hle hnow
  have hw := eq_opWord_of_canonical hc hop
  interval_cases op
  · cases (decodeWord_reset hop).symm.trans hd
    exact encode_of_no_field hc hop rfl (by decide) rfl
  · cases (decodeWord_init hop).symm.trans hd
    exact encode_of_no_field hc hop rfl (by decide) rfl
  · cases (decodeWord_edge hop).symm.trans hd
    rw [show usedBits 2 = BitVec.twoPow 16 8 from rfl, bitField_of_and w (by decide)] at hw
    exact congrArg (fun v => some (TraceLine.word v now)) hw.symm
  · cases (decodeWord_tick hop).symm.trans hd
    obtain rfl := hnow.resolve_left (by decide)
    rw [show usedBits 3 = BitVec.twoPow 16 9 from rfl, bitField_of_and w (by decide)] at hw
    exact congrArg (fun v => some (TraceLine.word v 0)) hw.symm
  · cases (decodeWord_send hop).symm.trans hd
    obtain rfl := hnow.resolve_left (by decide)
    rw [show usedBits 4 = 0x00FF from rfl, byteField_of_and] at hw
    exact congrArg (fun v => some (TraceLine.word v 0)) hw.symm
  · cases (decodeWord_read hop).symm.trans hd
    exact encode_of_no_field hc hop rfl (by decide) rfl
  · cases (decodeWord_inhibit hop).symm.trans hd
    exact encode_of_no_field hc hop rfl (by decide) rfl

/-- Settles O6: a canonical word has one of the seven codes, so it decodes, and to an operation whose word it
is. -/
theorem canonicalLinesEncodeBack : Obligations.CanonicalLinesEncodeBack := by
  unfold Obligations.CanonicalLinesEncodeBack
  constructor
  · intro line i hc hd
    cases line with
    | word w now => exact encode_of_decodeWord hc hd
    | frame11 f now gap => cases hd; rfl
    | frame12 f now gap =>
      obtain ⟨a, b, rfl, rfl⟩ := decode_frame12_eq_ok hd
      rfl
  · intro w now
    constructor
    · intro hc
      obtain ⟨hop, -, -⟩ := canonical_word_iff.mp hc
      obtain ⟨i, hi⟩ := exists_decodeWord (now := now) hop
      exact ⟨i, encode_of_decodeWord hc hi⟩
    · rintro ⟨i, hi⟩
      exact encode_canonical i _ hi

/-- Settles O4, by running the decoder on each written word. -/
theorem writtenWordsDecode : Obligations.WrittenWordsDecode := by
  unfold Obligations.WrittenWordsDecode
  decide

end Sys2Proof.Machine
end

-- Proofs: the selection of sub-operations
section
/-! PROOFS. EDGE, READ and TICK are the sub-operations the state selects, and every other sub-operation is
refused (30_encoding.md R64). -/

namespace Sys2Proof.Machine

/-! ### Selected: what READ and TICK come down to -/

theorem exec_readSub (s : State) : exec (readSub s) s = execRead s := by
  cases hh : s.queue.q_head with
  | none =>
    have hempty : s.queue.isEmpty = true := by simp [Queue.isEmpty, hh]
    simp [readSub, exec, execRead, execQReadEmpty, hempty, qRead_of_empty hh]
  | some a =>
    have hempty : s.queue.isEmpty = false := by simp [Queue.isEmpty, hh]
    simp [readSub, exec, execRead, execQReadByte, hempty, hh, qRead_of_head hh]

/-- R64's two rows for one counter: the sub-operation of a tick while it is above 1, and the one at 1. -/
def counterSubs (x : Config.Counter) (hold last : Instr) : List Instr :=
  if x = 0#8 then [] else if 1#8 < x then [hold] else [last]

theorem tickSubs_of_countersZero (c : Bool) {s : State} (h : countersZero s = true) :
    tickSubs c s = [.tickNop] := if_pos h

theorem tickSubs_of_running (c : Bool) {s : State} (h : countersZero s = false) :
    tickSubs c s = counterSubs s.inh_cnt .tickInhHold .tickInhEnd ++
      counterSubs s.wr_cnt .tickWrHold .tickWrEnd ++
      counterSubs s.st_cnt (.tickStHold c) .tickStEnd := if_neg (by simp [h])

/-- A counter's sub-operations perform its block when each of them does in its own case. -/
theorem runOps_counterSubs {x : Config.Counter} {hold last : Instr} {s t : State} (hzero : x = 0#8 → t = s)
    (hhold : 1#8 < x → exec hold s = .next t) (hlast : x = 1#8 → exec last s = .next t) :
    runOps (counterSubs x hold last) s = .next t := by
  unfold counterSubs
  split_ifs with h₀ h₁
  · rw [hzero h₀]
    rfl
  · rw [runOps, hhold h₁]
    rfl
  · have hone : x = 1#8 := by_contra fun hne => h₁ (one_lt_counter h₀ hne)
    rw [runOps, hlast hone]
    rfl

theorem runOps_inhSubs (s : State) :
    runOps (counterSubs s.inh_cnt .tickInhHold .tickInhEnd) s = .next (inhBlock s) :=
  runOps_counterSubs (fun h => if_pos h)
    (fun h => by simp [exec, execTickInhHold, h, inhBlock_of_one_lt h])
    (fun h => by simp [exec, execTickInhEnd, h, inhBlock_of_eq_one h])

theorem runOps_wrSubs (s : State) :
    runOps (counterSubs s.wr_cnt .tickWrHold .tickWrEnd) s = .next (wrBlock s) :=
  runOps_counterSubs (fun h => if_pos h)
    (fun h => by simp [exec, execTickWrHold, h, wrBlock_of_one_lt h])
    (fun h => by simp [exec, execTickWrEnd, h, wrBlock_of_eq_one h])

theorem runOps_stSubs (c : Bool) (s : State) :
    runOps (counterSubs s.st_cnt (.tickStHold c) .tickStEnd) s = .next (stBlock c s) :=
  runOps_counterSubs (fun h => if_pos h)
    (fun h => by simp [exec, execTickStHold, h, stBlock_of_one_lt c h])
    (fun h => by simp [exec, execTickStEnd, h, stBlock_of_eq_one c h])

theorem tickAll_of_countersZero (c : Bool) {s : State} (h : countersZero s = true) : tickAll c s = s := by
  obtain ⟨hi, hw, hs⟩ := (countersZero_iff s).mp h
  simp [tickAll, inhBlock, wrBlock, stBlock, hi, hw, hs]

/-- A block changes no other counter, so each block's sub-operation can be selected before the TICK. -/
theorem runOps_tickSubs (c : Bool) (s : State) : runOps (tickSubs c s) s = .next (tickAll c s) := by
  cases h : countersZero s with
  | true =>
    rw [tickSubs_of_countersZero c h, tickAll_of_countersZero c h]
    simp [runOps, exec, execTickNop, h]
  | false =>
    rw [tickSubs_of_running c h, runOps_append, runOps_append, runOps_inhSubs, andThen_of_next,
      ← inhBlock_wr_cnt s, runOps_wrSubs, andThen_of_next, ← inhBlock_st_cnt s,
      ← wrBlock_st_cnt (inhBlock s), runOps_stSubs]
    rfl

/-- Settles O43: a sub-operation that is selected is its parent, and the blocks of a TICK run in order. -/
theorem operationsAreTheirSelectedSubOperations : Obligations.OperationsAreTheirSelectedSubOperations := by
  unfold Obligations.OperationsAreTheirSelectedSubOperations
  intro d c now s
  exact ⟨(exec_edgeSub d now s).symm, (exec_readSub s).symm, (runOps_tickSubs c s).symm⟩

/-! ### Not selected: which outcomes are refusals -/

theorem selected_refused_iff {sel : Bool} {m : String} {r : Result}
    (hr : ∀ m', r ≠ .refused (.notSelected m')) :
    (∃ m', selected sel m r = .refused (.notSelected m')) ↔ sel = false := by
  cases sel with
  | true => simp [hr]
  | false => simp

theorem selected_next_refused_iff {sel : Bool} {m : String} {t : State} :
    (∃ m', selected sel m (.next t) = .refused (.notSelected m')) ↔ sel = false :=
  selected_refused_iff fun _ h => nomatch h

theorem putStore_ne_refused (b : Byte) (s : State) (f : Refusal) : putStore b s ≠ .refused f := by
  unfold putStore
  split <;> simp

theorem qPut_ne_refused (b : Byte) (s : State) (f : Refusal) : qPut b s ≠ .refused f := by
  unfold qPut
  split
  · simp
  · exact putStore_ne_refused b s f

theorem readByte_ne_refused (a : Fin Config.queueCapacity) (s : State) (f : Refusal) :
    readByte a s ≠ .refused f := by
  unfold readByte
  split <;> simp

theorem stopBit_ne_refused (d : Bool) (s : State) (f : Refusal) : stopBit d s ≠ .refused f := by
  simp only [stopBit, endValid]
  split
  · simp
  · cases hq : qPut _ _ with
    | next t => simp
    | fault g => simp [andThen]
    | refused g => exact absurd hq (qPut_ne_refused _ _ _)

theorem positionAction_ne_refused (d : Bool) (s : State) (f : Refusal) :
    positionAction d s ≠ .refused f := by
  unfold positionAction
  split_ifs
  · simp
  · simp
  · simp
  · exact stopBit_ne_refused d s f

theorem execEdge_ne_refused (d : Bool) (now : Nat) (s : State) (f : Refusal) :
    execEdge d now s ≠ .refused f := by
  unfold execEdge decEdge
  split
  · split_ifs
    · exact positionAction_ne_refused d _ f
    · simp
  · simp

/-! ### EDGE -/

theorem edgeSub_of_decOpen (d : Bool) (now : Nat) {s : State} (h : decOpen s = true) :
    edgeSub d now s =
      if (guardedPos now s).val = 0 then .decStart d now
      else if (guardedPos now s).val ≤ 8 then .decData d now
      else if (guardedPos now s).val = 9 then .decParity d now
      else .decStop d now := by
  simp only [decOpen, Bool.and_eq_true, decide_eq_true_eq] at h
  simp [edgeSub, h]

theorem edgeSub_of_encOpen (d : Bool) (now : Nat) {s : State} (h : encOpen s = true) :
    edgeSub d now s =
      if s.tx_pos.val ≤ 7 then .encData
      else if s.tx_pos.val = 8 then .encParity
      else if s.tx_pos.val = 9 then .encStop
      else .encAck d := by
  simp only [encOpen, decide_eq_true_eq] at h
  simp [edgeSub, h]

/-- R64's rows for EDGE, with the operands of the edge. -/
def edgeRows (d : Bool) (now : Nat) : List Instr :=
  [.decIgnore, .decStart d now, .decData d now, .decParity d now, .decStop d now,
    .encIgnore, .encData, .encParity, .encStop, .encAck d]

theorem selected_or_refused {sel : Bool} {m : String} {r : Result} {p : Prop} (h : sel = true → p) :
    p ∨ ∃ m', selected sel m r = .refused (.notSelected m') := by
  cases sel with
  | true => exact .inl (h rfl)
  | false => exact .inr ⟨m, rfl⟩

/-- `selected_or_refused` for a handler that is open and a position to be met. -/
theorem selected_at_or_refused {handler : Bool} {pos : Prop} [Decidable pos] {m : String}
    {r : Result} {p : Prop} (h : handler = true → pos → p) :
    p ∨ ∃ m', selected (handler && decide pos) m r = .refused (.notSelected m') :=
  selected_or_refused fun hsel => by
    rw [Bool.and_eq_true, decide_eq_true_eq] at hsel
    obtain ⟨ho, hp⟩ := hsel
    exact h ho hp

theorem eq_edgeSub_or_refused {d : Bool} {now : Nat} {i : Instr} (s : State) (hi : i ∈ edgeRows d now) :
    edgeSub d now s = i ∨ ∃ m, exec i s = .refused (.notSelected m) := by
  simp only [edgeRows, List.mem_cons, List.not_mem_nil, or_false] at hi
  rcases hi with rfl | rfl | rfl | rfl | rfl | rfl | rfl | rfl | rfl | rfl
  · exact selected_or_refused fun h => by simp_all [edgeSub]
  · exact selected_at_or_refused fun ho hp => by simp [edgeSub_of_decOpen d now ho, hp]
  · refine selected_at_or_refused fun ho hp => ?_
    have hp₀ : (guardedPos now s).val ≠ 0 := by omega
    rw [edgeSub_of_decOpen d now ho, if_neg hp₀, if_pos hp.2]
  · exact selected_at_or_refused fun ho hp => by simp [edgeSub_of_decOpen d now ho, hp]
  · exact selected_at_or_refused fun ho hp => by simp [edgeSub_of_decOpen d now ho, hp]
  · exact selected_or_refused fun h => by simp_all [edgeSub]
  · exact selected_at_or_refused fun ho hp => by simp [edgeSub_of_encOpen d now ho, hp]
  · exact selected_at_or_refused fun ho hp => by simp [edgeSub_of_encOpen d now ho, hp]
  · exact selected_at_or_refused fun ho hp => by simp [edgeSub_of_encOpen d now ho, hp]
  · exact selected_at_or_refused fun ho hp => by simp [edgeSub_of_encOpen d now ho, hp]

theorem edgeRow_refused_iff {d : Bool} {now : Nat} {i : Instr} (s : State) (hi : i ∈ edgeRows d now) :
    (∃ m, exec i s = .refused (.notSelected m)) ↔ i ≠ edgeSub d now s := by
  constructor
  · rintro ⟨m, hm⟩ rfl
    exact execEdge_ne_refused d now s _ ((exec_edgeSub d now s).symm.trans hm)
  · exact fun hne => (eq_edgeSub_or_refused s hi).resolve_left hne.symm

/-! ### TICK -/

theorem mem_counterSubs {x : Config.Counter} {hold last i : Instr} :
    i ∈ counterSubs x hold last ↔ (i = hold ∧ 1#8 < x) ∨ (i = last ∧ x = 1#8) := by
  unfold counterSubs
  split_ifs with h₀ h₁
  · simp [h₀]
  · simp [h₁, (counter_ne_of_one_lt h₁).2]
  · have hone : x = 1#8 := by_contra fun hne => h₁ (one_lt_counter h₀ hne)
    simp [hone]

theorem mem_tickSubs {c : Bool} {s : State} {i : Instr} :
    i ∈ tickSubs c s ↔ (i = .tickNop ∧ countersZero s = true) ∨
      i ∈ counterSubs s.inh_cnt .tickInhHold .tickInhEnd ∨
      i ∈ counterSubs s.wr_cnt .tickWrHold .tickWrEnd ∨
      i ∈ counterSubs s.st_cnt (.tickStHold c) .tickStEnd := by
  cases h : countersZero s with
  | true =>
    obtain ⟨hi, hw, hs⟩ := (countersZero_iff s).mp h
    simp [tickSubs_of_countersZero c h, counterSubs, hi, hw, hs]
  | false => simp [tickSubs_of_running c h]

/-- R64's rows for TICK, with the level of the tick. -/
def tickRows (c : Bool) : List Instr :=
  [.tickInhHold, .tickInhEnd, .tickWrHold, .tickWrEnd, .tickStHold c, .tickStEnd, .tickNop]

theorem tickRow_refused_iff {c : Bool} {i : Instr} (s : State) (hi : i ∈ tickRows c) :
    (∃ m, exec i s = .refused (.notSelected m)) ↔ i ∉ tickSubs c s := by
  simp only [tickRows, List.mem_cons, List.not_mem_nil, or_false] at hi
  rcases hi with rfl | rfl | rfl | rfl | rfl | rfl | rfl <;>
    refine selected_next_refused_iff.trans ?_ <;> simp [mem_tickSubs, mem_counterSubs]

/-! ### READ and put -/

theorem readRow_refused_iff {i : Instr} (s : State) (hi : i ∈ [Instr.qReadEmpty, .qReadByte]) :
    (∃ m, exec i s = .refused (.notSelected m)) ↔ i ≠ readSub s := by
  simp only [List.mem_cons, List.not_mem_nil, or_false] at hi
  rcases hi with rfl | rfl
  · refine selected_next_refused_iff.trans ?_
    cases h : s.queue.isEmpty <;> simp [readSub, h]
  · cases hh : s.queue.q_head with
    | none => simp [exec, execQReadByte, readSub, Queue.isEmpty, hh]
    | some a => simp [exec, execQReadByte, readSub, Queue.isEmpty, hh, readByte_ne_refused]

/-- Settles O44: one lemma for each parent; a sub-operation of put is refused exactly on its test of the
queue. -/
theorem unselectedSubOperationsAreRefused : Obligations.UnselectedSubOperationsAreRefused := by
  unfold Obligations.UnselectedSubOperationsAreRefused
  refine ⟨fun d now s i hi => edgeRow_refused_iff s hi, fun c s i hi => tickRow_refused_iff s hi,
    fun s i hi => readRow_refused_iff s hi, fun b s => ⟨?_, selected_next_refused_iff⟩⟩
  refine (selected_refused_iff fun _ => putStore_ne_refused b s _).trans ?_
  simp

end Sys2Proof.Machine
end

-- Proofs: the Decoder, edge by edge
section
/-! PROOFS. What one edge does at each of the Decoder's positions, and that the sub-operation of the position
does the same (40_decoder.md R75 to R82). -/

namespace Sys2Proof.Machine

/-! ### The guard and the staleness guard -/

theorem decOpen_of_receiving {s : State} (ha : s.armed = .dec) (hi : s.inh_cnt = 0#8)
    (hw : s.wr_cnt = 0#8) (hs : s.st_cnt = 0#8) : decOpen s = true := by
  simp [decOpen, ha, (countersZero_iff s).mpr ⟨hi, hw, hs⟩]

theorem execEdge_of_decOpen (d : Bool) (now : Nat) {s : State} (h : decOpen s = true) :
    execEdge d now s = positionAction d (stalenessGuard now s) := by
  simp only [decOpen, Bool.and_eq_true, decide_eq_true_eq] at h
  obtain ⟨ha, hc⟩ := h
  simp [execEdge, decEdge, ha, hc]

/-- A time no more than `STALE_LIMIT` after the last edge is in time (R76). -/
theorem isStale_of_le {now : Nat} {s : State} (h : now ≤ s.rx_last + 100) : isStale now s = false := by
  refine decide_eq_false ?_
  rw [Config.staleLimit]
  omega

theorem guardedPos_of_fresh {now : Nat} {s : State} (h : isStale now s = false) :
    guardedPos now s = s.rx_pos := by
  simp [guardedPos, h]

theorem stalenessGuard_of_fresh {now : Nat} {s : State} (h : isStale now s = false) :
    stalenessGuard now s = { s with rx_last := now } := by
  simp [stalenessGuard, h]

theorem stalenessGuard_of_stale {now : Nat} {s : State} (h : isStale now s = true) :
    stalenessGuard now s = { s with rx_pos := 0, rx_last := now, raised := s.raised ++ [.desync] } := by
  simp [stalenessGuard, h, raiseCond]

/-- Once an edge has been guarded, the same edge finds no gap to report. -/
theorem stalenessGuard_idem (now : Nat) (s : State) :
    stalenessGuard now (stalenessGuard now s) = stalenessGuard now s := by
  have hlast := stalenessGuard_rx_last now s
  rw [stalenessGuard_of_fresh (isStale_of_le (by rw [hlast]; omega))]
  exact congrArg (fun last => { stalenessGuard now s with rx_last := last }) hlast.symm

/-- An edge acts from the state after its staleness guard. -/
theorem execEdge_stalenessGuard (d : Bool) (now : Nat) {s : State} (h : decOpen s = true) :
    execEdge d now (stalenessGuard now s) = execEdge d now s := by
  have hguard : decOpen (stalenessGuard now s) = true := by rwa [stalenessGuard_eq]
  rw [execEdge_of_decOpen d now h, execEdge_of_decOpen d now hguard, stalenessGuard_idem]

/-- Every edge the Decoder does not ignore records its time (R76). -/
theorem execEdge_rx_last {d : Bool} {now : Nat} {s t : State} (ho : decOpen s = true)
    (h : execEdge d now s = .next t) : t.rx_last = now := by
  simp only [decOpen, Bool.and_eq_true, decide_eq_true_eq] at ho
  obtain ⟨ha, hc⟩ := ho
  rcases execEdge_eq_next h with ⟨-, hdec⟩ | ⟨henc, -⟩
  · rcases decEdge_cases hdec with ⟨hignored, -⟩ | ⟨-, -, _, _, _, _, rfl⟩ | ⟨-, -, -, rfl⟩ |
      ⟨-, -, -, -, rfl⟩ | ⟨-, -, -, -, _, -, rfl⟩
    · exact absurd (hc.symm.trans hignored) (by decide)
    · rfl
    · rfl
    · rfl
    · rfl
  · exact absurd (ha.symm.trans henc) (by decide)

/-! ### The action of each position -/

section Positions

variable {d : Bool} {now : Nat} {s : State} (ho : decOpen s = true)
include ho

theorem execEdge_start (hp : (guardedPos now s).val = 0) :
    execEdge d now s = .next (startBit d (stalenessGuard now s)) := by
  simp [execEdge_of_decOpen d now ho, positionAction, hp]

theorem execEdge_data (h₁ : 1 ≤ (guardedPos now s).val) (h₈ : (guardedPos now s).val ≤ 8) :
    execEdge d now s = .next (dataBit d (stalenessGuard now s)) := by
  have h₀ : (guardedPos now s).val ≠ 0 := by omega
  simp only [execEdge_of_decOpen d now ho, positionAction, stalenessGuard_rx_pos, if_neg h₀, if_pos h₈]

theorem execEdge_parity (hp : (guardedPos now s).val = 9) :
    execEdge d now s = .next (parityBit d (stalenessGuard now s)) := by
  simp [execEdge_of_decOpen d now ho, positionAction, hp]

theorem execEdge_stop (hp : (guardedPos now s).val = 10) :
    execEdge d now s = stopBit d (stalenessGuard now s) := by
  simp [execEdge_of_decOpen d now ho, positionAction, hp]

/-! ### The sub-operation of each position (R64) -/

theorem exec_decStart (hp : (guardedPos now s).val = 0) :
    exec (.decStart d now) s = execEdge d now s := by
  simp [execEdge_start ho hp, exec, execDecStart, ho, hp]

theorem exec_decData (h₁ : 1 ≤ (guardedPos now s).val) (h₈ : (guardedPos now s).val ≤ 8) :
    exec (.decData d now) s = execEdge d now s := by
  simp [execEdge_data ho h₁ h₈, exec, execDecData, ho, h₁, h₈]

theorem exec_decParity (hp : (guardedPos now s).val = 9) :
    exec (.decParity d now) s = execEdge d now s := by
  simp [execEdge_parity ho hp, exec, execDecParity, ho, hp]

theorem exec_decStop (hp : (guardedPos now s).val = 10) :
    exec (.decStop d now) s = execEdge d now s := by
  simp [execEdge_stop ho hp, exec, execDecStop, ho, hp]

end Positions

/-! ### The stop bit -/

/-- An invalid frame, or a stop bit of 0, ends in the error path (R80, R82). -/
theorem stopBit_of_invalid {d : Bool} {s : State} (h : s.rx_bad = true ∨ d = false) :
    stopBit d s = .next (takeFrameError { s with rx_bad := true }) := by
  have hbad : badAfterStop d s.rx_bad = true := by
    rcases h with h | h <;> simp [badAfterStop, h]
  simp only [stopBit, hbad, if_true]

/-- A stop bit of 1 leaves a valid frame valid, so the byte is put (R80, R81). -/
theorem stopBit_of_valid {s : State} (h : s.rx_bad = false) : stopBit true s = endValid s := by
  have hstop : stopBit true s = if s.rx_bad then .next (takeFrameError s) else endValid s := rfl
  simp [hstop, h]

theorem Queue.store_of_storeSlot {m : Nat} {q : Queue (m + 1)} {a : Fin (m + 1)} (b : Byte)
    (h : q.storeSlot = some a) :
    q.store b = some { q_head := some (q.q_head.getD 0), q_tail := some (nextSlot a),
                       q_slot := q.q_slot.write a.val b } := by
  simp [Queue.store, h]

theorem qPut_of_storeSlot {s : State} {a : Fin Config.queueCapacity} (b : Byte)
    (hf : s.queue.isFull = false) (h : s.queue.storeSlot = some a) :
    qPut b s = .next
      { s with queue := { q_head := some (s.queue.q_head.getD 0), q_tail := some (nextSlot a),
                          q_slot := s.queue.q_slot.write a.val b } } := by
  rw [qPut_of_not_full b hf, putStore, Queue.store_of_storeSlot b h]

/-! ### The rules, one edge each -/

/-- Settles O16: with a counter running neither the EDGE nor DEC.IGNORE passes the guard of R75. -/
theorem decoderIgnoresEdgesDuringAPhase : Obligations.DecoderIgnoresEdgesDuringAPhase := by
  unfold Obligations.DecoderIgnoresEdgesDuringAPhase
  intro d now s ha hrunning
  have hc : countersZero s = false := by
    rw [← Bool.not_eq_true, countersZero_iff]
    tauto
  constructor
  · simp [exec, execEdge, decEdge, ha, hc]
  · simp [exec, execDecIgnore, ha, hc]

/-- Settles O17: the edge acts from the state after the staleness guard, whose two outcomes are named. -/
theorem staleEdgeStartsAFreshFrame : Obligations.StaleEdgeStartsAFreshFrame := by
  unfold Obligations.StaleEdgeStartsAFreshFrame
  intro d now s ha hi hw hs
  have ho := decOpen_of_receiving ha hi hw hs
  have hguard := (execEdge_stalenessGuard d now ho).symm
  refine ⟨fun hgap => ?_, fun hgap => ?_, fun t ht => ?_⟩
  · rwa [stalenessGuard_of_stale (decide_eq_true hgap)] at hguard
  · rwa [stalenessGuard_of_fresh (decide_eq_false hgap)] at hguard
  · exact execEdge_rx_last ho ht

/-- Settles O18: the position is 0 after the staleness guard, so the edge is the start bit. -/
theorem startBitOpensAFrame : Obligations.StartBitOpensAFrame := by
  unfold Obligations.StartBitOpensAFrame
  rintro d now s t ha hi hw hs hstart rfl
  have ho := decOpen_of_receiving ha hi hw hs
  have hp : (guardedPos now s).val = 0 := by
    rcases hstart with h | h <;> simp [guardedPos, h]
  rw [exec_decStart ho hp, exec, execEdge_start ho hp, stalenessGuard_eq]
  exact ⟨rfl, rfl⟩

/-- Settles O19: the edge is in time, at a data position. -/
theorem dataBitIsAccumulated : Obligations.DataBitIsAccumulated := by
  unfold Obligations.DataBitIsAccumulated
  rintro d now s t k' ha hi hw hs hfresh h₁ h₈ hk rfl
  have ho := decOpen_of_receiving ha hi hw hs
  have hp := guardedPos_of_fresh hfresh
  rw [← hp] at h₁ h₈
  have hk' : nextPos s.rx_pos = k' := by
    rw [hp] at h₈
    simp [nextPos, show s.rx_pos.val < 10 by omega, Fin.ext_iff, hk]
  rw [exec_decData ho h₁ h₈, exec, execEdge_data ho h₁ h₈, stalenessGuard_of_fresh hfresh, ← hk']
  exact ⟨rfl, rfl⟩

theorem parityAfter_eq_xor (par bit : Bool) : parityAfter par bit = (par ^^ bit) := by
  cases bit <;> simp [parityAfter]

/-- Settles O20: the edge is in time, at the parity position. -/
theorem parityBitIsChecked : Obligations.ParityBitIsChecked := by
  unfold Obligations.ParityBitIsChecked
  rintro d now s t ha hi hw hs hfresh hpos rfl
  have ho := decOpen_of_receiving ha hi hw hs
  have hp : (guardedPos now s).val = 9 := by rw [guardedPos_of_fresh hfresh, hpos]
  rw [exec_decParity ho hp, exec, execEdge_parity ho hp, stalenessGuard_of_fresh hfresh, ← parityAfter_eq_xor]
  exact ⟨rfl, rfl⟩

/-- Settles O21: the stop bit keeps the frame valid, and the put drops or stores as the queue says. -/
theorem validFrameEndsInAPut : Obligations.ValidFrameEndsInAPut := by
  unfold Obligations.ValidFrameEndsInAPut
  intro now s ha hi hw hs hfresh hpos hbad
  have ho := decOpen_of_receiving ha hi hw hs
  have hp : (guardedPos now s).val = 10 := by rw [guardedPos_of_fresh hfresh, hpos]
  have hend : exec (.edge true now) s = endValid { s with rx_last := now } := by
    rw [exec, execEdge_stop ho hp, stalenessGuard_of_fresh hfresh,
      stopBit_of_valid (s := { s with rx_last := now }) hbad]
  refine ⟨fun hfull => ⟨?_, exec_decStop ho hp⟩, fun a k hfull hslot hk => ⟨?_, exec_decStop ho hp⟩⟩
  · rw [hend, endValid, qPut_of_full (s := { s with rx_last := now }) _ hfull]
    rfl
  · obtain rfl : k = nextSlot a := Fin.ext hk
    rw [hend, endValid, qPut_of_storeSlot (s := { s with rx_last := now }) _ hfull hslot]
    rfl

/-- Settles O22: the stop bit takes the error path, which requests the error byte as SEND does. -/
theorem invalidFrameRequestsTheErrorByte : Obligations.InvalidFrameRequestsTheErrorByte := by
  unfold Obligations.InvalidFrameRequestsTheErrorByte
  rintro d now s t ha hi hw hs hfresh hpos hbad rfl
  have ho := decOpen_of_receiving ha hi hw hs
  have hp : (guardedPos now s).val = 10 := by rw [guardedPos_of_fresh hfresh, hpos]
  rw [exec_decStop ho hp, exec, execEdge_stop ho hp, stalenessGuard_of_fresh hfresh,
    stopBit_of_invalid (s := { s with rx_last := now }) hbad]
  exact ⟨rfl, rfl, rfl⟩

end Sys2Proof.Machine
end

-- Proofs: the Decoder, a whole frame
section
/-! PROOFS. The eleven edges of RXFRAME from position 0: what the Decoder has accumulated after each data bit,
and the put or the error request at the stop bit (40_decoder.md R83, R84). -/

namespace Sys2Proof.Machine

/-! ### RXFRAME as operations -/

theorem andThen_next (r : Result) : andThen r .next = r := by
  cases r <;> rfl

theorem runOps_singleton (i : Instr) (s : State) : runOps [i] s = exec i s := andThen_next _

theorem runEdges_eq_runOps (es : List (Bool × Nat)) (s : State) :
    runEdges es s = runOps (es.map fun e => .edge e.1 e.2) s := by
  induction es generalizing s with
  | nil => rfl
  | cons e rest ih => exact congrArg (andThen (execEdge e.1 e.2 s)) (funext ih)

/-- The first `n` edges of the frame word `f`, the first one at `now` (R69). -/
def frameOps (f : Frame11) (now gap n : Nat) : List Instr :=
  (List.range n).map fun i => .edge (f.getLsbD i) (now + i * gap)

theorem exec_rxframe_eq_runOps (f : Frame11) (now gap : Nat) (s : State) :
    exec (.rxframe f now gap) s = runOps (frameOps f now gap 11) s := by
  rw [exec, execRxframe, runEdges_eq_runOps, frameEdges, List.map_map]
  rfl

theorem runOps_frameOps_succ (f : Frame11) (now gap n : Nat) (s : State) :
    runOps (frameOps f now gap (n + 1)) s =
      andThen (runOps (frameOps f now gap n) s) (execEdge (f.getLsbD n) (now + n * gap)) := by
  rw [frameOps, List.range_succ, List.map_append, runOps_append]
  exact congrArg (andThen _) (funext fun t => runOps_singleton _ t)

/-! ### What the Decoder accumulates -/

/-- The low `j` bits of the byte the frame carries: what `rx_byte` holds after `j` data bits (R78). -/
def dataSoFar (f : Frame11) (j : Nat) : Byte := (f.extractLsb' 1 j).setWidth 8

theorem dataSoFar_eight (f : Frame11) : dataSoFar f 8 = frameByte f := BitVec.setWidth_eq _

theorem dataSoFar_getLsbD (f : Frame11) (j : Nat) {i : Nat} (hi : i < 8) :
    (dataSoFar f j).getLsbD i = (decide (i < j) && f.getLsbD (i + 1)) := by
  simp [dataSoFar, hi, Nat.add_comm 1 i]

theorem orDataBit_getLsbD {k : Fin 11} {j : Nat} (hk : k.val = j + 1) (hj : j < 8) (d : Bool) (byte : Byte)
    (i : Nat) : (orDataBit k d byte).getLsbD i = (byte.getLsbD i || (decide (j = i) && d)) := by
  cases d with
  | true =>
    have hor : orDataBit k true byte = byte ||| BitVec.twoPow 8 j := by
      rw [orDataBit, if_pos rfl, hk, Nat.add_sub_cancel, BitVec.twoPow]
    rw [hor, BitVec.getLsbD_or, BitVec.getLsbD_twoPow]
    simp [hj]
  | false => simp [orDataBit]

/-- A data bit extends what has been accumulated by one bit of the frame (R78). -/
theorem dataSoFar_succ (f : Frame11) {k : Fin 11} {j : Nat} (hk : k.val = j + 1) (hj : j < 8) :
    dataSoFar f (j + 1) = orDataBit k (f.getLsbD (j + 1)) (dataSoFar f j) := by
  refine BitVec.eq_of_getLsbD_eq fun i hi => ?_
  rw [orDataBit_getLsbD hk hj, dataSoFar_getLsbD f _ hi, dataSoFar_getLsbD f _ hi]
  rcases Nat.lt_trichotomy i j with hlt | rfl | hgt
  · simp [hlt, Nat.lt_succ_of_lt hlt, hlt.ne']
  · simp
  · simp [hgt.not_gt, hgt.ne, show ¬i < j + 1 by omega]

/-- The exclusive OR of the frame's bits 1 to `j`: what `rx_par` holds after `j` bits (R78, R79). -/
def parityUpTo (f : Frame11) : Nat → Bool
  | 0 => false
  | j + 1 => parityAfter (parityUpTo f j) (f.getLsbD (j + 1))

theorem parityUpTo_nine (f : Frame11) : parityUpTo f 9 = frameParity f := by
  simp [parityUpTo, parityAfter_eq_xor, frameParity]

/-- The state after the start bit and `j` data bits of `f`, received from position 0 in `s`. -/
def afterData (f : Frame11) (now gap : Nat) (s : State) (j : Nat) : State :=
  { s with
    rx_pos := Fin.ofNat 11 (j + 1)
    rx_byte := dataSoFar f j
    rx_par := parityUpTo f j
    rx_bad := f.getLsbD 0
    rx_last := now + j * gap
    raised := if isStale now s then s.raised ++ [.desync] else s.raised }

/-- What the stop bit of `f` acts on: ten edges have been received from position 0 in `s`, and the time of the
eleventh is recorded. -/
def atStop (f : Frame11) (now gap : Nat) (s : State) : State :=
  { s with
    rx_pos := 10
    rx_byte := frameByte f
    rx_par := frameParity f
    rx_bad := f.getLsbD 0 || !frameParity f
    rx_last := now + 10 * gap
    raised := if isStale now s then s.raised ++ [.desync] else s.raised }

theorem nextPos_ofNat {j : Nat} (hj : j < 10) : nextPos (Fin.ofNat 11 j) = Fin.ofNat 11 (j + 1) := by
  have hval : (Fin.ofNat 11 j).val = j := Nat.mod_eq_of_lt (by omega)
  rw [nextPos, dif_pos (by omega)]
  exact Fin.ext (by simp only [hval, Fin.val_ofNat]; omega)

theorem badAfterParity_eq (par bad : Bool) : badAfterParity par bad = (bad || !par) := by
  cases par <;> simp [badAfterParity]

/-- The stop bit finds the frame invalid exactly when the word is (R56, R80). -/
theorem atStop_rx_bad_or (f : Frame11) (now gap : Nat) (s : State) :
    ((atStop f now gap s).rx_bad || !f.getLsbD 10) = !validFrame f := by
  simp only [atStop, validFrame, Bool.not_and, Bool.not_not]
  exact Bool.or_right_comm _ _ _

theorem afterData_zero (f : Frame11) (now gap : Nat) (s : State) :
    afterData f now gap s 0 = startBit (f.getLsbD 0) (stalenessGuard now s) := by
  have hbyte : dataSoFar f 0 = 0#8 := by simp [dataSoFar]
  rw [afterData, hbyte, Nat.zero_mul, Nat.add_zero, stalenessGuard_eq]
  rfl

section Frame

variable (f : Frame11) (now : Nat) {gap : Nat} {s : State}

theorem decOpen_afterData (ho : decOpen s = true) (j : Nat) : decOpen (afterData f now gap s j) = true := ho

theorem afterData_fresh (hgap : gap ≤ 100) (j : Nat) :
    isStale (now + (j + 1) * gap) (afterData f now gap s j) = false :=
  isStale_of_le (by simp only [afterData, Nat.succ_mul]; omega)

variable (ho : decOpen s = true) (hpos : s.rx_pos = 0) (hgap : gap ≤ 100)
include ho hpos hgap

/-- The start bit and the data bits, by induction on the number of data bits. -/
theorem runOps_data {j : Nat} (hj : j ≤ 8) :
    runOps (frameOps f now gap (j + 1)) s = .next (afterData f now gap s j) := by
  induction j with
  | zero =>
    have hp : (guardedPos now s).val = 0 := by simp [guardedPos, hpos]
    rw [runOps_frameOps_succ, frameOps, List.range_zero, List.map_nil, runOps, andThen_of_next, Nat.zero_mul,
      Nat.add_zero, execEdge_start ho hp, afterData_zero]
  | succ j ih =>
    have hfresh := afterData_fresh f now (s := s) hgap j
    have hk : (Fin.ofNat 11 (j + 1)).val = j + 1 := Nat.mod_eq_of_lt (by omega)
    have hp : (guardedPos (now + (j + 1) * gap) (afterData f now gap s j)).val = j + 1 := by
      rw [guardedPos_of_fresh hfresh]
      exact hk
    rw [runOps_frameOps_succ, ih (by omega), andThen_of_next,
      execEdge_data (decOpen_afterData f now ho j) (by omega) (by omega), stalenessGuard_of_fresh hfresh]
    simp only [dataBit, afterData, nextPos_ofNat (show j + 1 < 10 by omega), ← dataSoFar_succ f hk (by omega)]
    rfl

/-- The parity bit completes the parity of positions 1 to 9 and checks it (R79). -/
theorem runOps_parity :
    runOps (frameOps f now gap 10) s = .next { atStop f now gap s with rx_last := now + 9 * gap } := by
  have hfresh := afterData_fresh f now (s := s) hgap 8
  have hp : (guardedPos (now + 9 * gap) (afterData f now gap s 8)).val = 9 := by
    rw [guardedPos_of_fresh hfresh]
    rfl
  rw [runOps_frameOps_succ, runOps_data f now ho hpos hgap (Nat.le_refl 8), andThen_of_next,
    execEdge_parity (decOpen_afterData f now ho 8) hp, stalenessGuard_of_fresh hfresh]
  have hpar : parityAfter (parityUpTo f 8) (f.getLsbD 9) = frameParity f := parityUpTo_nine f
  simp only [parityBit, afterData, hpar, badAfterParity_eq, dataSoFar_eight]
  rfl

/-- The eleventh edge is the stop bit of what the first ten have accumulated (R83). -/
theorem exec_rxframe_eq_stopBit :
    exec (.rxframe f now gap) s = stopBit (f.getLsbD 10) (atStop f now gap s) := by
  have hfresh : isStale (now + 10 * gap) { atStop f now gap s with rx_last := now + 9 * gap } = false :=
    isStale_of_le (show now + 10 * gap ≤ now + 9 * gap + 100 by omega)
  have ho' : decOpen { atStop f now gap s with rx_last := now + 9 * gap } = true := ho
  have hp : (guardedPos (now + 10 * gap) { atStop f now gap s with rx_last := now + 9 * gap }).val = 10 := by
    rw [guardedPos_of_fresh hfresh]
    rfl
  rw [exec_rxframe_eq_runOps, runOps_frameOps_succ, runOps_parity f now ho hpos hgap, andThen_of_next,
    execEdge_stop ho' hp, stalenessGuard_of_fresh hfresh]
  rfl

/-- An invalid frame word ends in the error path (R82, R83). -/
theorem exec_rxframe_of_invalid (hf : validFrame f = false) :
    exec (.rxframe f now gap) s = .next (takeFrameError { atStop f now gap s with rx_bad := true }) := by
  have hbad := atStop_rx_bad_or f now gap s
  rw [hf, Bool.not_false, Bool.or_eq_true, Bool.not_eq_true'] at hbad
  rw [exec_rxframe_eq_stopBit f now ho hpos hgap, stopBit_of_invalid hbad]

/-- A valid frame word ends in a put of its byte, and the position returns to 0 (R81, R83). -/
theorem exec_rxframe_of_valid (hf : validFrame f = true) {q : Queue Config.queueCapacity}
    {causes : List ErrorCondition}
    (hput : ∀ u : State, u.queue = s.queue →
      qPut (frameByte f) u = .next { u with queue := q, raised := u.raised ++ causes }) :
    exec (.rxframe f now gap) s = .next
      { atStop f now gap s with
        rx_pos := 0, rx_bad := false, queue := q, raised := (atStop f now gap s).raised ++ causes } := by
  have hbad := atStop_rx_bad_or f now gap s
  rw [hf, Bool.not_true, Bool.or_eq_false_iff, Bool.not_eq_false'] at hbad
  obtain ⟨hvalid, hstop⟩ := hbad
  have hput' : qPut (atStop f now gap s).rx_byte (atStop f now gap s) = _ := hput _ rfl
  rw [exec_rxframe_eq_stopBit f now ho hpos hgap, hstop, stopBit_of_valid hvalid, endValid, hput', ← hvalid]
  rfl

end Frame

/-! ### The put at the end of a valid frame -/

/-- A put reads the queue alone, and writes the queue and the record of conditions. The premise on the
cursors, R33 item 1, gives it a slot. -/
theorem exists_qPut {q : Queue Config.queueCapacity} (hcursors : q.q_head = none ↔ q.q_tail = none)
    (b : Byte) :
    ∃ q' causes, ∀ s : State, s.queue = q →
      qPut b s = .next { s with queue := q', raised := s.raised ++ causes } := by
  cases hf : q.isFull with
  | true =>
    refine ⟨q, [.queueOverflow], ?_⟩
    rintro s rfl
    exact qPut_of_full b hf
  | false =>
    have hslot : ∃ a, q.storeSlot = some a := by
      cases hh : q.q_head with
      | none => exact ⟨0, Queue.storeSlot_of_empty hh⟩
      | some h =>
        rw [Queue.storeSlot_of_head hh]
        exact Option.ne_none_iff_exists'.mp (mt hcursors.mpr (by simp [hh]))
    obtain ⟨a, ha⟩ := hslot
    refine ⟨{ q_head := some (q.q_head.getD 0), q_tail := some (nextSlot a),
              q_slot := q.q_slot.write a.val b }, [], ?_⟩
    rintro s rfl
    rw [qPut_of_storeSlot b hf ha, List.append_nil]

/-- Settles O23: a valid word ends in a put, an invalid one in the error path; RXFRAME is its edges by
definition. -/
theorem decoderAsAFunctionOfTheFrame : Obligations.DecoderAsAFunctionOfTheFrame := by
  unfold Obligations.DecoderAsAFunctionOfTheFrame
  refine ⟨fun f now gap s ha hi hw hs hpos hgap hcursors => ?_, exec_rxframe_eq_runOps⟩
  have ho := decOpen_of_receiving ha hi hw hs
  cases hf : validFrame f with
  | true =>
    obtain ⟨q, causes, hput⟩ := exists_qPut hcursors (frameByte f)
    refine ⟨_, exec_rxframe_of_valid f now ho hpos hgap hf hput, rfl, rfl, rfl, rfl, rfl, ?_, ?_, ?_⟩
    · exact fun _ => ⟨rfl, hw, _, hput s rfl, rfl⟩
    · exact fun h => absurd h (by decide)
    · rw [← hpos]
      rfl
  | false =>
    refine ⟨_, exec_rxframe_of_invalid f now ho hpos hgap hf, rfl, rfl, rfl, rfl, rfl, ?_, ?_, ?_⟩
    · exact fun h => absurd h (by decide)
    · exact fun _ => ⟨rfl, rfl, rfl⟩
    · rw [takeFrameError, ← hpos]
      rfl

/-! ### Frames received and frames corrupted -/

/-- Settles O24: the put stores to slot 0, and the READ takes that slot, where `q_head` meets `q_tail`. -/
theorem receivedByteIsReadBack : Obligations.ReceivedByteIsReadBack := by
  unfold Obligations.ReceivedByteIsReadBack
  intro b now gap s ha hi hw hs hpos hgap hhead htail
  obtain ⟨hframe, -⟩ := decoderAsAFunctionOfTheFrame
  obtain ⟨t, ht, -, -, -, -, -, hvalid, -, -⟩ :=
    hframe (frameOf b) now gap s ha hi hw hs hpos hgap (by simp [hhead, htail])
  obtain ⟨-, -, u, hu, hqueue⟩ := hvalid (validFrame_frameOf b)
  have hfull : s.queue.isFull = false := by simp [Queue.isFull, hhead]
  rw [qPut_of_storeSlot _ hfull (Queue.storeSlot_of_empty hhead)] at hu
  cases hu
  have hbyte : (frameOf b).extractLsb' 1 8 = b := frameByte_frameOf b
  have hrun : runOps [.rxframe (frameOf b) now gap, .read] s = .next
      { t with read_ok := true, read_byte := some b, queue := t.queue.advance 0 } := by
    rw [runOps, ht, andThen_of_next, runOps_singleton]
    refine (qRead_of_head (a := 0) (by simp [hqueue, hhead])).trans ?_
    rw [readByte, hqueue, Memory.read_write_same, hbyte]
  have hempty : t.queue.advance 0 = { t.queue with q_head := none, q_tail := none } :=
    if_pos (by rw [hqueue])
  exact ⟨_, hrun, rfl, rfl, congrArg Queue.q_head hempty, congrArg Queue.q_tail hempty⟩

theorem parityUpTo_xor (f g : Frame11) (j : Nat) :
    parityUpTo (f ^^^ g) j = (parityUpTo f j ^^ parityUpTo g j) := by
  induction j with
  | zero => rfl
  | succ j ih =>
    simp [parityUpTo, parityAfter_eq_xor, ih, Bool.xor_left_comm]

theorem frameParity_frameOf (b : Byte) : frameParity (frameOf b) = true := by
  rw [frameParity_eq_true_iff, frameByte_frameOf, frameOf_parity]

/-- One flipped data or parity bit makes the parity even (R84). -/
theorem frameParity_flip (b : Byte) {k : Nat} (h₁ : 1 ≤ k) (h₉ : k ≤ 9) :
    frameParity (frameOf b ^^^ (1#11 <<< k)) = false := by
  have hbit : frameParity (1#11 <<< k) = true := by interval_cases k <;> rfl
  rw [← parityUpTo_nine, parityUpTo_xor, parityUpTo_nine, parityUpTo_nine, frameParity_frameOf, hbit]
  rfl

/-- Settles O25: a flipped bit or a stop bit of 0 makes the word invalid, and an invalid word takes the error
path. -/
theorem corruptedFramePutsNothing : Obligations.CorruptedFramePutsNothing := by
  unfold Obligations.CorruptedFramePutsNothing
  intro f b k now gap s ha hi hw hs hpos hgap hcorrupt
  have hf : validFrame f = false := by
    rcases hcorrupt with ⟨h₁, h₉, rfl⟩ | hstop
    · rw [validFrame, frameParity_flip b h₁ h₉, Bool.and_false]
    · rw [validFrame, hstop, Bool.and_false, Bool.false_and]
  refine ⟨_, exec_rxframe_of_invalid f now (decOpen_of_receiving ha hi hw hs) hpos hgap hf, rfl, rfl, rfl, ?_⟩
  rw [takeFrameError_raised]
  exact List.mem_concat_self

end Sys2Proof.Machine
end

-- Proofs: the Encoder
section
/-! PROOFS. What one edge does at each of the Encoder's positions, what either handler leaves unchanged, and
the eleven edges that put the frame of the pending byte on the data line (41_encoder.md R90 to R96). -/

namespace Sys2Proof.Machine

/-! ### One edge, and the sub-operation of its position -/

theorem execEdge_of_enc (d : Bool) (now : Nat) {s : State} (ha : s.armed = .enc) :
    execEdge d now s = .next (encEdge d s) := by
  simp [execEdge, ha]

/-- The EDGE and the sub-operation it selects leave what one Encoder invocation does (R64, R90). -/
theorem exec_edge_and_sub {d : Bool} {now : Nat} {i : Instr} {s t : State} (ha : s.armed = .enc)
    (hsub : edgeSub d now s = i) (ht : encEdge d s = t) :
    exec (.edge d now) s = .next t ∧ exec i s = .next t := by
  have hedge : execEdge d now s = .next t := by rw [execEdge_of_enc d now ha, ht]
  exact ⟨hedge, by rw [← hsub, exec_edgeSub, hedge]⟩

theorem encOpen_of_transmitting {s : State} (ha : s.armed = .enc) (hs : s.st_cnt = 0#8) :
    encOpen s = true := decide_eq_true ⟨ha, hs⟩

section Positions

variable {s : State} (hs : s.st_cnt = 0#8)
include hs

theorem encEdge_data (d : Bool) (hp : s.tx_pos.val ≤ 7) : encEdge d s = emitData s := by
  simp [encEdge, encAction, hs, hp]

theorem encEdge_parity (d : Bool) (hp : s.tx_pos.val = 8) : encEdge d s = emitParity s := by
  simp [encEdge, encAction, hs, hp]

theorem encEdge_stop (d : Bool) (hp : s.tx_pos.val = 9) : encEdge d s = emitStop s := by
  simp [encEdge, encAction, hs, hp]

theorem encEdge_ack (d : Bool) (hp : s.tx_pos.val = 10) : encEdge d s = sampleAck d s := by
  simp [encEdge, encAction, hs, hp]

end Positions

/-- The acknowledgment in one record; a level of 1 is recorded as `NoAck` (R95, R138). -/
theorem sampleAck_eq (d : Bool) (s : State) :
    sampleAck d s =
      { s with
        ack_lvl := d
        st_cnt := Config.settleTicks
        clk_drv := .low
        tx_pos := 0
        raised := if d then s.raised ++ [.noAck] else s.raised } := by
  cases d <;> rfl

/-! ### The rules, one edge each -/

/-- Settles O26: the guard of R91 lets no edge through while `st_cnt` is nonzero. -/
theorem encoderIgnoresEdgesWhileSettling : Obligations.EncoderIgnoresEdgesWhileSettling := by
  unfold Obligations.EncoderIgnoresEdgesWhileSettling
  intro d now s ha hs
  exact exec_edge_and_sub ha (by simp [edgeSub, ha, hs]) (if_pos hs)

/-- Settles O27: the edge is at a data position, and the next position exists. -/
theorem dataBitIsEmitted : Obligations.DataBitIsEmitted := by
  unfold Obligations.DataBitIsEmitted
  rintro d now s t k' ha hs hp hk rfl
  have hsub : edgeSub d now s = .encData := by
    simp [edgeSub_of_encOpen d now (encOpen_of_transmitting ha hs), hp]
  have hk' : nextPos s.tx_pos = k' := by
    simp [nextPos, show s.tx_pos.val < 10 by omega, Fin.ext_iff, hk]
  refine exec_edge_and_sub ha hsub ((encEdge_data hs d hp).trans ?_)
  simp only [emitData, hk', parityAfter_eq_xor, Fin.val_eq_zero_iff]
  rfl

/-- Settles O28: the edge is at the parity position. -/
theorem parityBitIsEmitted : Obligations.ParityBitIsEmitted := by
  unfold Obligations.ParityBitIsEmitted
  rintro d now s t ha hs hp rfl
  have hsub : edgeSub d now s = .encParity := by
    simp [edgeSub_of_encOpen d now (encOpen_of_transmitting ha hs), hp]
  have hdrv : driveOf (!s.tx_par) = if s.tx_par then .low else .rel := by
    cases s.tx_par <;> rfl
  refine exec_edge_and_sub ha hsub ((encEdge_parity hs d hp).trans ?_)
  rw [emitParity, hdrv]

/-- Settles O29: the edge is at the stop position. -/
theorem stopBitReleasesTheDataLine : Obligations.StopBitReleasesTheDataLine := by
  unfold Obligations.StopBitReleasesTheDataLine
  rintro d now s t ha hs hp rfl
  have hsub : edgeSub d now s = .encStop := by
    simp [edgeSub_of_encOpen d now (encOpen_of_transmitting ha hs), hp]
  exact exec_edge_and_sub ha hsub (encEdge_stop hs d hp)

/-- Settles O30: the edge is at the last position; both levels of the acknowledgment are `sampleAck_eq`. -/
theorem acknowledgmentStartsTheSettlePhase : Obligations.AcknowledgmentStartsTheSettlePhase := by
  unfold Obligations.AcknowledgmentStartsTheSettlePhase
  rintro d now s t ha hs hp rfl
  have hsub : edgeSub d now s = .encAck d := by
    simp [edgeSub_of_encOpen d now (encOpen_of_transmitting ha hs), hp]
  exact exec_edge_and_sub ha hsub ((encEdge_ack hs d hp).trans (sampleAck_eq d s))

/-! ### What each handler leaves unchanged -/

/-- The Decoder writes no line, no `armed` and nothing of the Encoder's but `pend` and `wr_cnt`, with which
it requests the error byte (40_decoder.md section 1, R82). -/
theorem decEdge_frame {d : Bool} {now : Nat} {s t : State} (h : decEdge d now s = .next t) :
    t = { s with
      rx_pos := t.rx_pos, rx_byte := t.rx_byte, rx_par := t.rx_par, rx_bad := t.rx_bad,
      rx_last := t.rx_last, queue := t.queue, pend := t.pend, wr_cnt := t.wr_cnt,
      raised := t.raised } := by
  rcases decEdge_cases h with ⟨-, rfl⟩ | ⟨-, -, _, _, _, _, rfl⟩ | ⟨-, -, -, rfl⟩ |
    ⟨-, -, -, -, rfl⟩ | ⟨-, -, -, -, _, -, rfl⟩ <;> rfl

/-- The Encoder writes nothing of the Decoder's, no `armed`, no other counter and no queue (R90). -/
theorem encEdge_frame (d : Bool) (s : State) :
    encEdge d s =
      { s with
        tx_pos := (encEdge d s).tx_pos, tx_par := (encEdge d s).tx_par, pend := (encEdge d s).pend,
        ack_lvl := (encEdge d s).ack_lvl, st_cnt := (encEdge d s).st_cnt,
        data_drv := (encEdge d s).data_drv, clk_drv := (encEdge d s).clk_drv,
        raised := (encEdge d s).raised } := by
  rcases encEdge_cases d s with ⟨-, he⟩ | ⟨-, -, _, _, _, _, he⟩ | ⟨-, -, he⟩ <;> rw [he]

/-- Settles O50: the frame of the handler that is armed. -/
theorem handlersKeepToTheirOwnSide : Obligations.HandlersKeepToTheirOwnSide := by
  unfold Obligations.HandlersKeepToTheirOwnSide
  intro d now s t h
  rcases execEdge_eq_next h with ⟨ha, hdec⟩ | ⟨ha, rfl⟩
  · exact ⟨fun _ => decEdge_frame hdec, fun henc => nomatch ha.symm.trans henc⟩
  · exact ⟨fun hdec => (nomatch ha.symm.trans hdec), fun _ => encEdge_frame d s⟩

/-! ### The frame on the data line -/

@[simp] theorem levelOf_driveOf (bit : Bool) : levelOf (driveOf bit) = bit := by
  cases bit <;> rfl

theorem frameOf_data (b : Byte) {n : Nat} (hn : n < 8) : (frameOf b).getLsbD (n + 1) = b.getLsbD n := by
  have hle : n + 1 ≤ 8 := hn
  simp [frameOf_getLsbD b (show n + 1 < 11 by omega), hle]

/-- The parity of the data bits is the complement of the parity bit, whose frame is odd (R56). -/
theorem parityUpTo_frameOf_eight (b : Byte) : parityUpTo (frameOf b) 8 = !oddpar b := by
  have hodd : (parityUpTo (frameOf b) 8 ^^ oddpar b) = true := by
    rw [← frameOf_parity, ← parityAfter_eq_xor, ← frameParity_frameOf b, ← parityUpTo_nine]
    rfl
  exact Bool.eq_not_of_ne (by simpa using hodd)

/-- The state after `n` edges, at most ten, from position 0 in `s`: bit `n` of the frame is on the data line
and `n` bits have left `pend`. The parity stays after the eight data bits (D13), and is cleared by the first
edge only (D6). -/
def clockedOut (s : State) (n : Nat) : State :=
  { s with
    data_drv := driveOf ((frameOf s.pend).getLsbD n)
    tx_par := if n = 0 then s.tx_par else parityUpTo (frameOf s.pend) (min n 8)
    pend := s.pend >>> n
    tx_pos := Fin.ofNat 11 n }

theorem clockedOut_zero {s : State} (hpos : s.tx_pos = 0) (hdrv : s.data_drv = .low) :
    clockedOut s 0 = s := by
  rw [clockedOut, frameOf_start, BitVec.ushiftRight_zero]
  cases s
  cases hpos
  cases hdrv
  rfl

/-- From the parity position on the byte is used up and its parity complete. -/
theorem clockedOut_of_eight_le (s : State) {n : Nat} (hn : 8 ≤ n) :
    clockedOut s n =
      { s with
        data_drv := driveOf ((frameOf s.pend).getLsbD n)
        tx_par := !oddpar s.pend
        pend := 0#8
        tx_pos := Fin.ofNat 11 n } := by
  rw [clockedOut, if_neg (by omega), Nat.min_eq_right hn, parityUpTo_frameOf_eight,
    BitVec.ushiftRight_eq_zero hn]

theorem clockedOut_tx_pos (s : State) {n : Nat} (hn : n ≤ 10) : (clockedOut s n).tx_pos.val = n :=
  Nat.mod_eq_of_lt (by omega)

/-- A data bit extends the parity, from 0 at position 0 (R92, D6). -/
theorem clockedOut_tx_par_succ (s : State) {n : Nat} (hn : n ≤ 7) :
    parityAfter (if n = 0 then false else (clockedOut s n).tx_par) ((frameOf s.pend).getLsbD (n + 1)) =
      (clockedOut s (n + 1)).tx_par := by
  simp only [clockedOut, Nat.min_eq_left (show n ≤ 8 by omega), Nat.min_eq_left (show n + 1 ≤ 8 by omega)]
  cases n <;> rfl

section Frame

variable {s : State} (hs : s.st_cnt = 0#8)
include hs

/-- Positions 0 to 7: the low bit of what is left of `pend` is the next bit of the frame (R92). -/
theorem encEdge_clockedOut_data (d : Bool) {n : Nat} (hn : n ≤ 7) :
    encEdge d (clockedOut s n) = clockedOut s (n + 1) := by
  have hbit : emittedBit (clockedOut s n).pend = (frameOf s.pend).getLsbD (n + 1) := by
    rw [frameOf_data s.pend (by omega)]
    exact BitVec.getLsbD_ushiftRight ..
  have hshift : shiftPend (clockedOut s n).pend = (clockedOut s (n + 1)).pend := (BitVec.shiftRight_add ..).symm
  have hnext : nextPos (clockedOut s n).tx_pos = (clockedOut s (n + 1)).tx_pos := nextPos_ofNat (by omega)
  have hpos := clockedOut_tx_pos s (show n ≤ 10 by omega)
  rw [encEdge_data (s := clockedOut s n) hs d (by omega), emitData, hpos, hbit, hshift, hnext,
    clockedOut_tx_par_succ s hn]
  rfl

/-- One of the first ten edges advances the frame by one bit, whatever level it samples (R92 to R94). -/
theorem encEdge_clockedOut (d : Bool) {n : Nat} (hn : n < 10) :
    encEdge d (clockedOut s n) = clockedOut s (n + 1) := by
  have hpos := clockedOut_tx_pos s hn.le
  have hcases : n ≤ 7 ∨ n = 8 ∨ n = 9 := by omega
  rcases hcases with h | rfl | rfl
  · exact encEdge_clockedOut_data hs d h
  · rw [encEdge_parity (s := clockedOut s 8) hs d hpos, clockedOut_of_eight_le s (by omega),
      clockedOut_of_eight_le s (by omega), emitParity, Bool.not_not, frameOf_parity]
    rfl
  · rw [encEdge_stop (s := clockedOut s 9) hs d hpos, clockedOut_of_eight_le s (by omega),
      clockedOut_of_eight_le s (by omega), frameOf_stop]
    rfl

/-- The level before each of `k` further edges is a bit of the frame, in order (R57, R96). -/
theorem lineLevels_clockedOut {k n : Nat} (h : n + k ≤ 10) :
    lineLevels k (clockedOut s n) = (List.range' n (k + 1)).map fun i => (frameOf s.pend).getLsbD i := by
  induction k generalizing n with
  | zero => simp [lineLevels, clockedOut]
  | succ k ih =>
    rw [lineLevels, encEdge_clockedOut hs _ (by omega), ih (by omega), List.range'_succ (n := k + 1),
      List.map_cons, clockedOut, levelOf_driveOf]

theorem runEdges_clockedOut (ha : s.armed = .enc) {es : List (Bool × Nat)} (rest : List (Bool × Nat))
    {n : Nat} (h : n + es.length ≤ 10) :
    runEdges (es ++ rest) (clockedOut s n) = runEdges rest (clockedOut s (n + es.length)) := by
  induction es generalizing n with
  | nil => rfl
  | cons e es ih =>
    rw [List.length_cons] at h
    rw [List.cons_append, runEdges, execEdge_of_enc (s := clockedOut s n) _ _ ha, andThen_of_next,
      encEdge_clockedOut hs _ (by omega), ih (by omega), List.length_cons, Nat.add_right_comm, Nat.add_assoc]

end Frame

/-- Settles O31: ten edges by induction, each advancing the frame by one bit; the eleventh is the
acknowledgment. -/
theorem encoderEmitsTheFrameOfTheByte : Obligations.EncoderEmitsTheFrameOfTheByte := by
  unfold Obligations.EncoderEmitsTheFrameOfTheByte
  intro s es a now ha hs hpos hdrv hlen
  have hstart := clockedOut_zero hpos hdrv
  constructor
  · have hlevels := lineLevels_clockedOut hs (k := 10) (n := 0) (by omega)
    rwa [hstart, ← List.range_eq_range'] at hlevels
  · have hrun := runEdges_clockedOut hs ha (es := es) (n := 0) [(a, now)] (by omega)
    rw [hstart, hlen, Nat.zero_add, runEdges, execEdge_of_enc (s := clockedOut s 10) _ _ ha, andThen_of_next,
      encEdge_ack (s := clockedOut s 10) hs a (clockedOut_tx_pos s (le_refl 10)), sampleAck_eq] at hrun
    rw [hrun, runEdges, clockedOut_of_eight_le s (by omega), frameOf_stop]
    rfl

end Sys2Proof.Machine
end

-- Proofs: the Timing Sequencer
section
/-! PROOFS. The three blocks of one TICK, the counters over any number of TICKs, and the two phases of a
write: the write-request ticks and the settle ticks (42_sequencer.md R100 to R107). -/

namespace Sys2Proof.Machine

/-! ### One TICK -/

/-- The three blocks in one record: a later block overrides what an earlier one did to a line (R100, D8). -/
theorem tickAll_eq (c : Bool) (s : State) :
    tickAll c s =
      { s with
        inh_cnt := if s.inh_cnt = 0#8 then 0#8 else s.inh_cnt - 1#8
        wr_cnt := if s.wr_cnt = 0#8 then 0#8 else s.wr_cnt - 1#8
        st_cnt := if s.st_cnt = 0#8 then 0#8 else s.st_cnt - 1#8
        armed := if s.st_cnt = 1#8 then .dec else if s.wr_cnt = 1#8 then .enc else s.armed
        rx_pos := if s.wr_cnt = 1#8 then 0 else s.rx_pos
        tx_pos := if s.wr_cnt = 1#8 then 0 else s.tx_pos
        data_drv := if s.wr_cnt = 1#8 then .low else s.data_drv
        clk_drv :=
          if s.st_cnt = 1#8 then .rel
          else if s.st_cnt ≠ 0#8 ∧ c = true then .low
          else if s.wr_cnt = 1#8 then .rel
          else if s.wr_cnt ≠ 0#8 then .low
          else if s.inh_cnt = 1#8 then .rel
          else if s.inh_cnt ≠ 0#8 then .low
          else s.clk_drv } := by
  rw [tickAll, stBlock_eq, wrBlock_eq, inhBlock_eq]

/-- Settles O32: `tickAll_eq` is the answer of TICK. -/
theorem tickPerformsItsThreeBlocks : Obligations.TickPerformsItsThreeBlocks := by
  unfold Obligations.TickPerformsItsThreeBlocks
  intro c s
  exact congrArg Host.Outcome.next (tickAll_eq c s)

/-! ### Any number of TICKs -/

/-- The state after one TICK for each sampled clock level of the list. -/
def tickRun : List Bool → State → State
  | [], s => s
  | c :: cs, s => tickRun cs (tickAll c s)

theorem runOps_tick (cs : List Bool) (s : State) : runOps (cs.map .tick) s = .next (tickRun cs s) := by
  induction cs generalizing s with
  | nil => rfl
  | cons c cs ih => exact ih (tickAll c s)

/-- `TICKS n` of R69 is a run of `n` TICKs whose levels the bus implies. -/
theorem exists_tickRun_eq_ticks (n : Nat) (s : State) : ∃ cs, cs.length = n ∧ ticks n s = tickRun cs s := by
  induction n generalizing s with
  | zero => exact ⟨[], rfl, rfl⟩
  | succ n ih =>
    obtain ⟨cs, hlen, hrun⟩ := ih (tickAll (levelOf s.clk_drv) s)
    exact ⟨levelOf s.clk_drv :: cs, congrArg (· + 1) hlen, hrun⟩

theorem counter_dec_toNat (x : Config.Counter) :
    (if x = 0#8 then 0#8 else x - 1#8).toNat = x.toNat - 1 := by
  split_ifs with h
  · simp [h]
  · bv_omega

theorem tickAll_inh_cnt_toNat (c : Bool) (s : State) :
    (tickAll c s).inh_cnt.toNat = s.inh_cnt.toNat - 1 := by
  rw [tickAll_eq, counter_dec_toNat]

theorem tickAll_wr_cnt_toNat (c : Bool) (s : State) :
    (tickAll c s).wr_cnt.toNat = s.wr_cnt.toNat - 1 := by
  rw [tickAll_eq, counter_dec_toNat]

theorem tickAll_st_cnt_toNat (c : Bool) (s : State) :
    (tickAll c s).st_cnt.toNat = s.st_cnt.toNat - 1 := by
  rw [tickAll_eq, counter_dec_toNat]

/-- Settles O39, by induction on the ticks: each takes one from every counter that is not 0. -/
theorem counterLivesExactlyItsLoad : Obligations.CounterLivesExactlyItsLoad := by
  unfold Obligations.CounterLivesExactlyItsLoad
  intro cs s
  refine ⟨tickRun cs s, runOps_tick cs s, ?_⟩
  induction cs generalizing s with
  | nil => exact ⟨rfl, rfl, rfl⟩
  | cons c cs ih =>
    obtain ⟨hi, hw, hs⟩ := ih (tickAll c s)
    rw [tickAll_inh_cnt_toNat] at hi
    rw [tickAll_wr_cnt_toNat] at hw
    rw [tickAll_st_cnt_toNat] at hs
    simp only [tickRun, List.length_cons]
    omega

/-! ### The two phases of a write -/

/-- `s` after the `n` ticks of a write-request phase: the Encoder is armed at position 0, the start bit is on
the line, the clock is released (R103), and no settle phase runs any more. -/
def afterRequest (n : Nat) (s : State) : State :=
  { s with
    armed := .enc
    rx_pos := 0
    tx_pos := 0
    inh_cnt := BitVec.ofNat 8 (s.inh_cnt.toNat - n)
    wr_cnt := 0#8
    st_cnt := 0#8
    data_drv := .low
    clk_drv := .rel }

/-- `s` after the `n` ticks of a settle phase: the Decoder is armed and the clock released (R105). -/
def afterSettle (n : Nat) (s : State) : State :=
  { s with
    armed := .dec
    inh_cnt := BitVec.ofNat 8 (s.inh_cnt.toNat - n)
    st_cnt := 0#8
    clk_drv := .rel }

/-- The TICK is one of the `n + 1` that a running inhibit phase loses. -/
theorem inh_cnt_tickAll_sub (c : Bool) (s : State) (n : Nat) :
    BitVec.ofNat 8 ((tickAll c s).inh_cnt.toNat - n) = BitVec.ofNat 8 (s.inh_cnt.toNat - (n + 1)) := by
  rw [tickAll_inh_cnt_toNat, Nat.sub_sub, Nat.add_comm]

theorem afterRequest_tickAll (c : Bool) (s : State) (n : Nat) :
    afterRequest n (tickAll c s) = afterRequest (n + 1) s := by
  rw [afterRequest, inh_cnt_tickAll_sub, tickAll_eq]
  rfl

/-- Outside a write-request phase a TICK writes neither a position nor the data line. -/
theorem afterSettle_tickAll (c : Bool) {s : State} (hw : s.wr_cnt = 0#8) (n : Nat) :
    afterSettle n (tickAll c s) = afterSettle (n + 1) s := by
  rw [afterSettle, inh_cnt_tickAll_sub, tickAll_eq]
  simp [hw, afterSettle]

/-- The last tick of a write-request phase overrides what the inhibit block did to the clock (R103). -/
theorem tickAll_of_wr_cnt_eq_one (c : Bool) {s : State} (hw : s.wr_cnt = 1#8) (hs : s.st_cnt = 0#8) :
    tickAll c s = afterRequest 1 s := by
  rw [afterRequest, ← tickAll_inh_cnt_toNat c, BitVec.ofNat_toNat, BitVec.setWidth_eq, tickAll_eq]
  simp [hw, hs]

/-- The last tick of a settle phase, outside a write-request phase (R105). -/
theorem tickAll_of_st_cnt_eq_one (c : Bool) {s : State} (hw : s.wr_cnt = 0#8) (hs : s.st_cnt = 1#8) :
    tickAll c s = afterSettle 1 s := by
  rw [afterSettle, ← tickAll_inh_cnt_toNat c, BitVec.ofNat_toNat, BitVec.setWidth_eq, tickAll_eq]
  simp [hw, hs]

/-- The write-request phase to its end, beside a settle phase that ends before it: what the settle phase
does to `armed` and the clock is overridden at the last tick (R102, R103, D8). -/
theorem tickRun_of_wr_cnt {cs : List Bool} {s : State} (hw : s.wr_cnt.toNat = cs.length)
    (hst : s.st_cnt.toNat < cs.length) : tickRun cs s = afterRequest cs.length s := by
  induction cs generalizing s with
  | nil => exact absurd hst (Nat.not_lt_zero _)
  | cons c cs ih =>
    cases cs with
    | nil =>
      have hzero : s.st_cnt = 0#8 := BitVec.eq_of_toNat_eq (Nat.lt_one_iff.mp hst)
      exact tickAll_of_wr_cnt_eq_one c (BitVec.eq_of_toNat_eq hw) hzero
    | cons d ds =>
      have hwr := tickAll_wr_cnt_toNat c s
      have hset := tickAll_st_cnt_toNat c s
      simp only [List.length_cons] at hw hst ih ⊢
      rw [tickRun, ih (by omega) (by omega), afterRequest_tickAll]

/-- The settle phase to its end, outside a write-request phase (R104, R105). -/
theorem tickRun_of_st_cnt {cs : List Bool} {s : State} (hs : s.st_cnt.toNat = cs.length)
    (hpos : 0 < cs.length) (hw : s.wr_cnt = 0#8) : tickRun cs s = afterSettle cs.length s := by
  induction cs generalizing s with
  | nil => exact absurd hpos (Nat.lt_irrefl _)
  | cons c cs ih =>
    cases cs with
    | nil => exact tickAll_of_st_cnt_eq_one c hw (BitVec.eq_of_toNat_eq hs)
    | cons d ds =>
      have hset := tickAll_st_cnt_toNat c s
      have hwr : (tickAll c s).wr_cnt = 0#8 := by simp [tickAll_eq, hw]
      simp only [List.length_cons] at hs ih ⊢
      rw [tickRun, ih (by omega) (by omega) hwr, afterSettle_tickAll c hw]

/-- `TICKS` with the load of a write-request phase runs it to its end (R69, D7). -/
theorem ticks_of_wr_cnt {x : Config.Counter} {s : State} (hw : s.wr_cnt = x) (hst : s.st_cnt < x) :
    ticks x.toNat s = afterRequest x.toNat s := by
  obtain ⟨cs, hlen, hrun⟩ := exists_tickRun_eq_ticks x.toNat s
  rw [hrun, ← hlen]
  exact tickRun_of_wr_cnt (by rw [hw, hlen]) (hlen ▸ hst)

/-- `TICKS` with the load of a settle phase runs it to its end (R69, D7). -/
theorem ticks_of_st_cnt {x : Config.Counter} {s : State} (hs : s.st_cnt = x) (hpos : 0#8 < x)
    (hw : s.wr_cnt = 0#8) : ticks x.toNat s = afterSettle x.toNat s := by
  obtain ⟨cs, hlen, hrun⟩ := exists_tickRun_eq_ticks x.toNat s
  rw [hrun, ← hlen]
  exact tickRun_of_st_cnt (by rw [hs, hlen]) (hlen ▸ hpos) hw

/-! ### The write sequence -/

theorem encEdge_armed (d : Bool) (s : State) : (encEdge d s).armed = s.armed := by
  rw [encEdge_frame]

/-- TXCLK is a run of EDGEs: `n` whose levels the bus implies, then one with a level of its own (R69). -/
theorem exists_runEdges_eq_clockOut (n now gap later : Nat) (d : Bool) {s : State} (ha : s.armed = .enc) :
    ∃ es, es.length = n ∧
      andThen (clockOut n now gap s) (execEdge d later) = runEdges (es ++ [(d, later)]) s := by
  induction n generalizing now s with
  | zero => exact ⟨[], rfl, (andThen_next _).symm⟩
  | succ n ih =>
    have hedge := execEdge_of_enc (levelOf s.data_drv) now ha
    obtain ⟨es, hlen, hrun⟩ := ih (now + gap) ((encEdge_armed (levelOf s.data_drv) s).trans ha)
    refine ⟨(levelOf s.data_drv, now) :: es, congrArg (· + 1) hlen, ?_⟩
    rw [clockOut, andThen_assoc, List.cons_append, runEdges, hedge]
    exact hrun

/-- R96 for TXCLK: O31's run, whose ten levels the bus implies. -/
theorem txClock_of_transmitting (a : Bool) (now gap : Nat) {s : State} (ha : s.armed = .enc)
    (hs : s.st_cnt = 0#8) (hpos : s.tx_pos = 0) (hdrv : s.data_drv = .low) :
    txClock a now gap s = .next
      { s with
        ack_lvl := a
        st_cnt := Config.settleTicks
        clk_drv := .low
        data_drv := .rel
        tx_pos := 0
        pend := 0#8
        tx_par := !oddpar s.pend
        raised := if a then s.raised ++ [.noAck] else s.raised } := by
  obtain ⟨es, hlen, hrun⟩ := exists_runEdges_eq_clockOut 10 now gap (now + 10 * gap) a ha
  rw [txClock, hrun]
  exact (encoderEmitsTheFrameOfTheByte s es a _ ha hs hpos hdrv hlen).2

/-- Settles O40: from any state the write-request phase outlasts the settle phase, the eleven edges are O31's,
and the settle ticks follow; the Receiving role is the case in which all counters are 0. -/
theorem writeSequenceReturnsToReceiving : Obligations.WriteSequenceReturnsToReceiving := by
  unfold Obligations.WriteSequenceReturnsToReceiving
  refine (and_iff_right_of_imp fun hany a b now gap s hrole => ?_).mpr fun a b now gap s hs => ?_
  · obtain ⟨ha, hi, hw, hs⟩ := (role_eq_receiving_iff s).mp hrole
    rw [hany a b now gap s (by rw [hs]; decide)]
    simp [ha, hi, hw, hs]
  · have hloads : Config.settleTicks < Config.writeTicks := by decide
    have hst : s.st_cnt < Config.writeTicks := Nat.lt_of_le_of_lt hs hloads
    have hinh : (BitVec.ofNat 8 (s.inh_cnt.toNat - Config.writeTicks.toNat)).toNat =
        s.inh_cnt.toNat - Config.writeTicks.toNat := by
      rw [BitVec.toNat_ofNat, Nat.mod_eq_of_lt (by omega)]
    rw [exec, execTxframe, ticks_of_wr_cnt (requestSend_wr_cnt b s) hst,
      txClock_of_transmitting a now gap rfl rfl rfl rfl, andThen_of_next, ticks_of_st_cnt]
    · simp only [afterSettle, afterRequest, requestSend, hinh, Nat.sub_sub]
    · rfl
    · decide
    · rfl

/-! ### The sub-operations of TICK -/

/-- Settles O33: the two sub-operations of the inhibit block, and the guard of R75 while it runs. -/
theorem inhibitPhaseHoldsThenReleasesTheClock : Obligations.InhibitPhaseHoldsThenReleasesTheClock := by
  unfold Obligations.InhibitPhaseHoldsThenReleasesTheClock
  refine fun s => ⟨fun h => ?_, fun h => ?_, fun h => ⟨if_pos (.inl h), fun ha d now => ?_⟩⟩
  · simp [exec, execTickInhHold, h, inhHold, driveClockLow]
  · simp [exec, execTickInhEnd, h, inhEnd, releaseClock]
  · exact (decoderIgnoresEdgesDuringAPhase d now s ha (.inl h)).1

/-- Settles O34: a counter above 1 selects the hold, which drives the clock. -/
theorem writeRequestHoldsTheClock : Obligations.WriteRequestHoldsTheClock := by
  unfold Obligations.WriteRequestHoldsTheClock
  intro s h
  simp [exec, execTickWrHold, h, wrHold, driveClockLow]

/-- Settles O35: a counter of 1 selects the end; the Encoder it arms then waits for edges. -/
theorem writeRequestEndsWithTheStartBit : Obligations.WriteRequestEndsWithTheStartBit := by
  unfold Obligations.WriteRequestEndsWithTheStartBit
  rintro s t h rfl
  constructor
  · simp [exec, execTickWrEnd, h, wrEnd, releaseClock, driveDataLow]
  · intro hi hs
    simp [role, hi, hs]

/-- Settles O36: a counter above 1 selects the hold, which reads the sampled level. -/
theorem settleHoldsTheClockIfHigh : Obligations.SettleHoldsTheClockIfHigh := by
  unfold Obligations.SettleHoldsTheClockIfHigh
  intro s h
  simp [exec, execTickStHold, h, stHold, driveClockLow]

/-- Settles O37: a counter of 1 selects the end, which leaves what `role_eq_receiving_iff` asks for. -/
theorem settleEndsInReceiving : Obligations.SettleEndsInReceiving := by
  unfold Obligations.SettleEndsInReceiving
  intro s h
  refine ⟨?_, fun hi hw => (role_eq_receiving_iff _).mpr ⟨rfl, hi, hw, rfl⟩⟩
  simp [exec, execTickStEnd, h, endSettle, releaseClock]

/-- Settles O38: with no counter running no block does anything, and TICK.NOP is selected. -/
theorem idleTickChangesNothing : Obligations.IdleTickChangesNothing := by
  unfold Obligations.IdleTickChangesNothing
  intro c s hi hw hs
  have hzero : countersZero s = true := (countersZero_iff s).mpr ⟨hi, hw, hs⟩
  constructor
  · exact congrArg Host.Outcome.next (tickAll_of_countersZero c hzero)
  · simp [exec, execTickNop, hzero]

end Sys2Proof.Machine
end

-- Proofs: the queue as a first-in first-out list
section
/-! PROOFS. What put and READ do to the cursors and the slots, and then to the contents: the bytes of the
slots in use, the oldest first (10_state.md R26, 43_queue.md R111 to R114). -/

namespace Sys2Proof.Machine

/-! ### Put, READ and clear on the cursors and the slots -/

/-- On a queue that is not full the put is its sub-operation Q.PUT.STORE (R64). -/
theorem exec_qPutStore_of_not_full {s : State} (b : Byte) (hf : s.queue.isFull = false) :
    exec (.qPutStore b) s = qPut b s := by
  simp [exec, execQPutStore, hf, qPut_of_not_full b hf]

theorem readByte_of_written {s : State} {a : Fin Config.queueCapacity} {b : Byte}
    (hread : s.queue.q_slot.read a.val = some b) :
    readByte a s =
      .next { s with read_ok := true, read_byte := some b, queue := s.queue.advance a } := by
  simp [readByte, hread]

/-- The sub-operation of a READ is Q.READ.EMPTY or Q.READ.BYTE (R64). -/
theorem readSub_of_empty {s : State} (hh : s.queue.q_head = none) : readSub s = .qReadEmpty := by
  simp [readSub, Queue.isEmpty, hh]

theorem readSub_of_head {s : State} {a : Fin Config.queueCapacity} (hh : s.queue.q_head = some a) :
    readSub s = .qReadByte := by
  simp [readSub, Queue.isEmpty, hh]

/-- Settles O10, by the definition of Q.CLEAR. -/
theorem clearUnsetsBothCursors : Obligations.ClearUnsetsBothCursors := by
  unfold Obligations.ClearUnsetsBothCursors
  intro s
  rfl

/-- Settles O13: the READ and its selected sub-operation agree (`exec_readSub`), and `Queue.advance` moves
`q_head` on as its test of `q_tail` says. -/
theorem readAnswersTheOldestByteOrEmpty : Obligations.ReadAnswersTheOldestByteOrEmpty := by
  unfold Obligations.ReadAnswersTheOldestByteOrEmpty
  refine fun s => ⟨fun hh => ?_, fun a k b hh hread hk => ?_⟩
  · have hempty : exec .read s = .next (readEmpty s) := qRead_of_empty hh
    exact ⟨hempty, by rw [← readSub_of_empty hh, exec_readSub]; exact hempty⟩
  · obtain rfl : k = nextSlot a := Fin.ext hk
    have hbyte : exec .read s =
        .next { s with read_ok := true, read_byte := some b, queue := s.queue.advance a } :=
      (qRead_of_head hh).trans (readByte_of_written hread)
    refine ⟨fun hmeet => ?_, fun hapart => ?_, by rw [← readSub_of_head hh, exec_readSub]; rfl⟩
    · rw [hbyte, Queue.advance, if_pos hmeet.symm]
    · rw [hbyte, Queue.advance, if_neg (Ne.symm hapart)]

/-- Settles O15: `storeSlot` names the slot a put on a queue that is not full writes. -/
theorem putStoresOrDrops : Obligations.PutStoresOrDrops := by
  unfold Obligations.PutStoresOrDrops
  refine fun b s => ⟨fun k hh hk => ?_, fun a t k hh ht hne hk => ?_, fun hh hmeet => ?_⟩
  · have hf : s.queue.isFull = false := by simp [Queue.isFull, hh]
    obtain rfl : k = nextSlot 0 := Fin.ext hk
    rw [exec_qPutStore_of_not_full b hf, qPut_of_storeSlot b hf (Queue.storeSlot_of_empty hh), hh]
    rfl
  · have hf : s.queue.isFull = false := by simp [Queue.isFull, hh, ht, hne]
    obtain rfl : k = nextSlot t := Fin.ext hk
    simp [exec_qPutStore_of_not_full b hf,
      qPut_of_storeSlot b hf ((Queue.storeSlot_of_head hh).trans ht), hh]
  · have hf : s.queue.isFull = true := by simp [Queue.isFull, hh, ← hmeet]
    simp [exec, execQPutDrop, hf, putDrop, raiseCond]

/-! ### The contents of a queue -/

section Contents

variable {m n : Nat}

theorem Queue.count_le (q : Queue n) : q.count ≤ n := by
  unfold Queue.count
  split
  · rename_i h t _ _
    split
    · exact Nat.le_refl n
    · exact (Nat.mod_lt _ (Fin.pos h)).le
  · exact Nat.zero_le n

theorem Queue.count_of_full {q : Queue n} (hf : q.isFull = true) : q.count = n := by
  obtain ⟨hh, hmeet⟩ := of_decide_eq_true hf
  obtain ⟨h, hh⟩ := Option.ne_none_iff_exists'.mp hh
  rw [Queue.count_eq hh (hmeet.symm.trans hh), if_pos rfl]

theorem Queue.length_occupied (q : Queue n) : q.occupied.length = q.count := by
  cases hh : q.q_head with
  | none => simp [Queue.occupied_of_empty hh, Queue.count, hh]
  | some h => simp [Queue.occupied_of_head hh]

/-- No slot is in use twice: the slots in use are fewer than two turns of the ring. -/
theorem Queue.occupied_nodup (q : Queue n) : q.occupied.Nodup := by
  cases hh : q.q_head with
  | none => simp [Queue.occupied_of_empty hh]
  | some h =>
    rw [Queue.occupied_of_head hh]
    refine List.Nodup.map_on (fun i hi j hj hij => ?_) List.nodup_range
    have hi := (List.mem_range.mp hi).trans_le q.count_le
    have hj := (List.mem_range.mp hj).trans_le q.count_le
    exact (Nat.ModEq.add_left_cancel' h.val hij).eq_of_lt_of_lt hi hj

theorem Queue.length_contents {q : Queue n} (hq : q.wf) : q.contents.length = q.count := by
  obtain ⟨-, -, -, hwritten⟩ := hq
  rw [← Queue.length_occupied]
  exact List.filterMap_length_eq_length.mpr hwritten

theorem Queue.contents_of_empty {q : Queue n} (hh : q.q_head = none) : q.contents = [] := by
  simp [Queue.contents, Queue.occupied_of_empty hh]

/-- The byte at `q_head` is the first of the contents; the others are left when the cursor has moved on. -/
theorem Queue.contents_of_head {q : Queue n} {h : Fin n} (hq : q.wf) (hh : q.q_head = some h) :
    ∃ b, q.q_slot.read h.val = some b ∧ q.contents = b :: (q.advance h).contents := by
  obtain ⟨b, hb⟩ := Option.isSome_iff_exists.mp (Queue.read_head_isSome hq hh)
  obtain ⟨t, ht⟩ := Queue.tail_of_head hq hh
  refine ⟨b, hb, ?_⟩
  rw [Queue.contents, Queue.occupied_eq_cons_advance hh ht, List.filterMap_cons_some hb, Queue.contents,
    Queue.advance_slots]

theorem Queue.head_of_contents_nil {q : Queue n} (hq : q.wf) (hc : q.contents = []) :
    q.q_head = none := by
  cases hh : q.q_head with
  | none => rfl
  | some h =>
    obtain ⟨b, -, hcons⟩ := Queue.contents_of_head hq hh
    simp [hc] at hcons

/-- A put on a queue that is not full appends its byte: the slot it writes was not in use (R111). -/
theorem Queue.contents_store {b : Byte} {q q' : Queue (m + 1)} (hf : q.isFull = false)
    (h : q.store b = some q') : q'.contents = q.contents ++ [b] := by
  obtain ⟨a, ha, hq'⟩ := Queue.store_eq h
  have hocc := Queue.occupied_store hf ha h
  have hfresh : a.val ∉ q.occupied := by
    have hnodup := q'.occupied_nodup
    rw [hocc, ← List.concat_eq_append, List.nodup_concat] at hnodup
    exact hnodup.1
  have hold : q.occupied.filterMap q'.q_slot.read = q.contents :=
    List.filterMap_congr fun k hk => Queue.store_read h (by
      rw [ha]
      rintro ⟨⟩
      exact hfresh hk)
  have hnew : q'.q_slot.read a.val = some b := by rw [hq', Memory.read_write_same]
  rw [Queue.contents, hocc, List.filterMap_append, hold, List.filterMap_cons_some hnew, List.filterMap_nil]

theorem Queue.clear_of_empty {q : Queue n} (hq : q.wf) (hh : q.q_head = none) : q.clear = q := by
  obtain ⟨hcursors, -⟩ := hq
  obtain ⟨head, tail, slots⟩ := q
  simp_all [Queue.clear]

end Contents

/-! ### Put and READ on the contents -/

section OnContents

variable {s : State} (hq : s.queue.wf)
include hq

theorem qPut_appends (b : Byte) (hf : s.queue.isFull = false) :
    ∃ t, qPut b s = .next t ∧ t.queue.wf ∧ t.queue.contents = s.queue.contents ++ [b] := by
  obtain ⟨q, hstore⟩ := Queue.exists_store hq b
  exact ⟨{ s with queue := q }, by rw [qPut_of_not_full b hf, putStore, hstore],
    Queue.store_wf hq hf hstore, Queue.contents_store hf hstore⟩

theorem execRead_of_contents_nil (hc : s.queue.contents = []) : execRead s = .next (readEmpty s) :=
  qRead_of_empty (Queue.head_of_contents_nil hq hc)

theorem execRead_of_contents_cons {b : Byte} {bs : List Byte} (hc : s.queue.contents = b :: bs) :
    ∃ q, q.wf ∧ q.contents = bs ∧ q.q_slot = s.queue.q_slot ∧
      execRead s = .next { s with read_ok := true, read_byte := some b, queue := q } := by
  cases hh : s.queue.q_head with
  | none => simp [Queue.contents_of_empty hh] at hc
  | some a =>
    obtain ⟨b', hread, hcons⟩ := Queue.contents_of_head hq hh
    obtain ⟨rfl, rfl⟩ := List.cons.inj (hc.symm.trans hcons)
    exact ⟨s.queue.advance a, Queue.advance_wf hq hh, rfl, Queue.advance_slots a s.queue,
      (qRead_of_head hh).trans (readByte_of_written hread)⟩

end OnContents

/-! ### DRAIN (R69) -/

/-- The state a DRAIN leaves: its last READ answered empty, both cursors are unset, the slots stay. -/
def drainEnd (s : State) : State := readEmpty { s with queue := s.queue.clear }

theorem execRead_eq_drainEnd {s : State} (hq : s.queue.wf) (hc : s.queue.contents = []) :
    execRead s = .next (drainEnd s) := by
  rw [execRead_of_contents_nil hq hc, drainEnd,
    Queue.clear_of_empty hq (Queue.head_of_contents_nil hq hc)]

/-- A READ that answers a byte leaves a state from which a DRAIN ends as it would have before the READ. -/
theorem drainEnd_of_read (s : State) (b : Byte) {q : Queue Config.queueCapacity}
    (hslots : q.q_slot = s.queue.q_slot) :
    drainEnd { s with read_ok := true, read_byte := some b, queue := q } = drainEnd s := by
  simp [drainEnd, readEmpty, Queue.clear, hslots]

theorem drainFrom_eq {n : Nat} {s : State} (hq : s.queue.wf) (hn : s.queue.contents.length < n) :
    drainFrom n s = .next (drainEnd s) := by
  induction n generalizing s with
  | zero => exact absurd hn (Nat.not_lt_zero _)
  | succ n ih =>
    cases hc : s.queue.contents with
    | nil => simp [drainFrom, execRead_eq_drainEnd hq hc, drainEnd, readEmpty]
    | cons b bs =>
      obtain ⟨q, hwf, hbs, hslots, hread⟩ := execRead_of_contents_cons hq hc
      have hlen : q.contents.length < n := by simpa [hc, hbs] using hn
      rw [drainFrom, hread, andThen_of_next, if_pos rfl, ih hwf hlen, drainEnd_of_read s b hslots]

theorem drainBytes_eq {n : Nat} {s : State} (hq : s.queue.wf) (hn : s.queue.contents.length < n) :
    drainBytes n s = s.queue.contents := by
  induction n generalizing s with
  | zero => exact absurd hn (Nat.not_lt_zero _)
  | succ n ih =>
    cases hc : s.queue.contents with
    | nil => simp [drainBytes, execRead_eq_drainEnd hq hc, drainEnd, readEmpty]
    | cons b bs =>
      obtain ⟨q, hwf, hbs, -, hread⟩ := execRead_of_contents_cons hq hc
      have hlen : q.contents.length < n := by simpa [hc, hbs] using hn
      simp only [drainBytes, hread]
      rw [ih hwf hlen, hbs]

/-- One READ for each byte of the contents and one more are the READs of a DRAIN. -/
theorem runOps_reads_eq {s : State} (hq : s.queue.wf) :
    runOps (List.replicate (s.queue.contents.length + 1) .read) s = .next (drainEnd s) := by
  induction hc : s.queue.contents generalizing s with
  | nil => simp [runOps, exec, execRead_eq_drainEnd hq hc]
  | cons b bs ih =>
    obtain ⟨q, hwf, hbs, hslots, hread⟩ := execRead_of_contents_cons hq hc
    rw [List.length_cons, List.replicate_succ, runOps, exec, hread, andThen_of_next, ih hwf hbs,
      drainEnd_of_read s b hslots]

/-- Settles O45: put and READ on the contents, then the run of READs they give. -/
theorem queueIsAFifoList : Obligations.QueueIsAFifoList := by
  unfold Obligations.QueueIsAFifoList
  intro s hq
  have hlen : s.queue.contents.length = s.queue.count := Queue.length_contents hq
  have hlimit : s.queue.contents.length < drainLimit := Nat.lt_succ_of_le (hlen ▸ s.queue.count_le)
  have hdrain : drain s = .next (drainEnd s) := drainFrom_eq hq hlimit
  refine ⟨qPut_appends hq, fun b hf => ⟨putDrop s, qPut_of_full b hf, rfl⟩, fun b bs hc => ?_,
    fun hc => ⟨readEmpty s, execRead_of_contents_nil hq hc, rfl, rfl, rfl⟩, hlen, s.queue.count_le,
    drainBytes_eq hq hlimit, hdrain, (runOps_reads_eq hq).trans hdrain.symm⟩
  obtain ⟨q, hwf, hbs, -, hread⟩ := execRead_of_contents_cons hq hc
  exact ⟨_, hread, rfl, rfl, hwf, hbs⟩

/-! ### Any number of puts -/

/-- Puts append their bytes up to the capacity, whatever the queue held. -/
theorem putAll_contents (bs : List Byte) {s : State} (hq : s.queue.wf) :
    ∃ t, putAll bs s = .next t ∧ t.queue.wf ∧
      t.queue.contents = (s.queue.contents ++ bs).take Config.queueCapacity := by
  induction bs generalizing s with
  | nil =>
    refine ⟨s, rfl, hq, ?_⟩
    rw [List.append_nil, List.take_of_length_le (Queue.length_contents hq ▸ s.queue.count_le)]
  | cons b bs ih =>
    cases hf : s.queue.isFull with
    | false =>
      obtain ⟨u, hput, hwf, hcontents⟩ := qPut_appends hq b hf
      obtain ⟨t, hrest, ht, htake⟩ := ih hwf
      refine ⟨t, by rw [putAll, hput, andThen_of_next, hrest], ht, ?_⟩
      rw [htake, hcontents, List.append_assoc, List.singleton_append]
    | true =>
      obtain ⟨t, hrest, ht, htake⟩ := ih (s := putDrop s) hq
      refine ⟨t, by rw [putAll, qPut_of_full b hf, andThen_of_next, hrest], ht, ?_⟩
      have hfull : s.queue.contents.length = Config.queueCapacity :=
        (Queue.length_contents hq).trans (Queue.count_of_full hf)
      rw [htake, putDrop, raiseCond_queue, List.take_left' hfull, List.take_left' hfull]

/-- Settles O46, as the case of no contents of `putAll_contents`. -/
theorem queueRetainsTheFirstN : Obligations.QueueRetainsTheFirstN := by
  unfold Obligations.QueueRetainsTheFirstN
  intro bs s hq hh
  simpa [Queue.contents_of_empty hh] using putAll_contents bs hq

end Sys2Proof.Machine
end

-- Proofs: the interface's operations and the changes of the role
section
/-! PROOFS. RESET, INIT, SEND and INHIBIT on the whole state, and which operation changes the Bus Role from
a state of ordinary use (44_host_ops.md R120 to R128, 10_state.md R21, R33). -/

namespace Sys2Proof.Machine

/-! ### RESET, INIT, SEND and INHIBIT -/

/-- Settles O8, by the definition of RESET. -/
theorem resetGivesEveryElementItsResetValue : Obligations.ResetGivesEveryElementItsResetValue := by
  unfold Obligations.ResetGivesEveryElementItsResetValue
  intro s
  exact ⟨{ State.reset with trace := s.trace }, rfl, by simp [State.reset]⟩

/-- Settles O9, by the definition of INIT. -/
theorem initWritesExactlyItsElements : Obligations.InitWritesExactlyItsElements := by
  unfold Obligations.InitWritesExactlyItsElements
  intro s
  rfl

/-- Settles O11, by the definition of SEND. -/
theorem sendCapturesByteAndArmsTheWritePhase : Obligations.SendCapturesByteAndArmsTheWritePhase := by
  unfold Obligations.SendCapturesByteAndArmsTheWritePhase
  intro b s
  rfl

/-- Settles O12: the test of INHIBIT either way, and `role_eq_receiving_iff`. -/
theorem inhibitActsOnlyInTheReceivingRole : Obligations.InhibitActsOnlyInTheReceivingRole := by
  unfold Obligations.InhibitActsOnlyInTheReceivingRole
  exact fun s => ⟨fun h => if_pos h, fun h => if_neg h, role_eq_receiving_iff s⟩

/-! ### The roles -/

theorem role_eq_idle_iff (s : State) : role s = .idle ↔ s.inh_cnt ≠ 0#8 ∨ s.wr_cnt ≠ 0#8 := by
  unfold role
  split_ifs with h <;> simp [h]

theorem role_eq_settling_iff (s : State) :
    role s = .settling ↔ s.inh_cnt = 0#8 ∧ s.wr_cnt = 0#8 ∧ s.st_cnt ≠ 0#8 := by
  unfold role
  split_ifs <;> simp <;> tauto

theorem role_eq_transmitting_iff (s : State) :
    role s = .transmitting ↔
      s.inh_cnt = 0#8 ∧ s.wr_cnt = 0#8 ∧ s.st_cnt = 0#8 ∧ s.armed = .enc := by
  unfold role
  split_ifs <;> simp <;> tauto

/-- A countdown phase is over after the tick that finds its counter at 1 (R100). -/
theorem counter_dec_eq_zero_iff (x : Config.Counter) :
    (if x = 0#8 then 0#8 else x - 1#8) = 0#8 ↔ x = 0#8 ∨ x = 1#8 := by
  split_ifs with h
  · simp [h]
  · simp [h, BitVec.sub_eq_iff_eq_add]

/-- `INHIBIT_TICKS` is at least 1 whatever the open choice is (R7). -/
theorem inhibitTicks_ne_zero : Config.inhibitTicks ≠ 0#8 := by
  unfold Config.inhibitTicks
  split_ifs with h
  · decide
  · exact h

theorem writeTicks_ne_zero : Config.writeTicks ≠ 0#8 := by decide

theorem settleTicks_ne_zero : Config.settleTicks ≠ 0#8 := by decide

/-! ### The changes of the role -/

/-- INHIBIT takes the Receiving role to Idle (R127). -/
theorem execInhibit_role {s t : State} (h : execInhibit s = .next t) (hne : role t ≠ role s) :
    role s = .receiving ∧ role t = .idle := by
  rcases execInhibit_eq_next h with ⟨ha, hi, hw, hs, rfl⟩ | rfl
  · exact ⟨(role_eq_receiving_iff s).mpr ⟨ha, hi, hw, hs⟩,
      (role_eq_idle_iff _).mpr (.inl inhibitTicks_ne_zero)⟩
  · exact absurd rfl hne

theorem requestSend_role (b : Byte) (s : State) : role (requestSend b s) = .idle :=
  (role_eq_idle_iff _).mpr (.inr writeTicks_ne_zero)

/-- Of the Decoder's actions only the end of an invalid frame changes the role (R82). -/
theorem decEdge_role {d : Bool} {now : Nat} {s t : State} (ha : s.armed = .dec)
    (h : decEdge d now s = .next t) (hne : role t ≠ role s) :
    role s = .receiving ∧ role t = .idle ∧ (guardedPos now s).val = 10 ∧ (s.rx_bad = true ∨ d = false) := by
  rcases decEdge_cases h with ⟨-, rfl⟩ | ⟨-, -, _, _, _, _, rfl⟩ | ⟨hc, hp, hbad, rfl⟩ |
    ⟨-, -, -, -, rfl⟩ | ⟨-, -, -, -, _, -, rfl⟩
  · exact absurd rfl hne
  · exact absurd rfl hne
  · exact ⟨(role_eq_receiving_iff s).mpr ⟨ha, (countersZero_iff s).mp hc⟩,
      (role_eq_idle_iff _).mpr (.inr writeTicks_ne_zero), hp, hbad⟩
  · exact absurd rfl hne
  · exact absurd rfl hne

/-- Of the Encoder's actions only the acknowledgment changes the role (R95). -/
theorem encEdge_role {d : Bool} {s : State} (ha : s.armed = .enc) (hi : s.inh_cnt = 0#8)
    (hw : s.wr_cnt = 0#8) (hne : role (encEdge d s) ≠ role s) :
    role s = .transmitting ∧ role (encEdge d s) = .settling ∧ s.tx_pos.val = 10 := by
  rcases encEdge_cases d s with ⟨-, he⟩ | ⟨-, -, _, _, _, _, he⟩ | ⟨hs, hp, he⟩ <;> rw [he] at hne ⊢
  · exact absurd rfl hne
  · exact absurd rfl hne
  · exact ⟨(role_eq_transmitting_iff s).mpr ⟨hi, hw, hs, ha⟩,
      (role_eq_settling_iff _).mpr ⟨hi, hw, settleTicks_ne_zero⟩, hp⟩

/-- The role after a TICK: a phase at 1 ends, the write-request phase in Transmitting and the settle phase
in Receiving (R101, R103, R105). -/
theorem role_tickAll (c : Bool) (s : State) :
    role (tickAll c s) =
      if ¬(s.inh_cnt = 0#8 ∨ s.inh_cnt = 1#8) ∨ ¬(s.wr_cnt = 0#8 ∨ s.wr_cnt = 1#8) then .idle
      else if ¬(s.st_cnt = 0#8 ∨ s.st_cnt = 1#8) then .settling
      else if s.st_cnt ≠ 1#8 ∧ (s.wr_cnt = 1#8 ∨ s.armed = .enc) then .transmitting
      else .receiving := by
  have harmed : (tickAll c s).armed = .enc ↔ s.st_cnt ≠ 1#8 ∧ (s.wr_cnt = 1#8 ∨ s.armed = .enc) := by
    rw [tickAll_armed]
    split_ifs with hs hw <;> simp [*]
  simp only [role, harmed]
  simp only [tickAll_eq, Ne, counter_dec_eq_zero_iff]

/-- A TICK that changes the role ends the one phase that runs. -/
theorem tickAll_role {c : Bool} {s : State} (h : UseInv s) (hne : role (tickAll c s) ≠ role s) :
    (role s = .idle ∧ role (tickAll c s) = .receiving ∧ s.inh_cnt = 1#8) ∨
    (role s = .idle ∧ role (tickAll c s) = .transmitting ∧ s.wr_cnt = 1#8) ∨
    (role s = .settling ∧ role (tickAll c s) = .receiving ∧ s.st_cnt = 1#8) := by
  rw [role_tickAll] at hne ⊢
  rcases (useInv_iff s).mp h with ⟨ha, hs, hi | hw⟩ | ⟨ha, hi, hw⟩
  · by_cases hw : s.wr_cnt = 1#8
    · exact .inr (.inl ⟨(role_eq_idle_iff s).mpr (.inr (by simp [hw])), by simp [hi, hw, hs], hw⟩)
    · exact absurd (by simp [role, ha, hi, hw, hs]) hne
  · by_cases hi : s.inh_cnt = 1#8
    · exact .inl ⟨(role_eq_idle_iff s).mpr (.inl (by simp [hi])), by simp [ha, hi, hw, hs], hi⟩
    · exact absurd (by simp [role, ha, hi, hw, hs]) hne
  · by_cases hs : s.st_cnt = 1#8
    · exact .inr (.inr ⟨(role_eq_settling_iff s).mpr ⟨hi, hw, by simp [hs]⟩, by simp [hi, hw, hs], hs⟩)
    · exact absurd (by simp [role, ha, hi, hw, hs]) hne

/-- The tick that ends the write-request phase starts both handlers at position 0 (R103). -/
theorem tickAll_positions (c : Bool) {s : State} (h : s.wr_cnt = 1#8) :
    (tickAll c s).rx_pos = 0 ∧ (tickAll c s).tx_pos = 0 := by
  simp [tickAll_eq, h]

/-- Settles O53: one lemma for each operation that can change the role, the rows being its cases. -/
theorem roleChangesOnlyAsTabled : Obligations.RoleChangesOnlyAsTabled := by
  unfold Obligations.RoleChangesOnlyAsTabled
  intro i s t huse h hne hop
  rcases hop with hop | ⟨d, now, rfl⟩ | ⟨c, rfl⟩ | ⟨b, rfl⟩
  · simp only [List.mem_cons, List.not_mem_nil, or_false] at hop
    rcases hop with rfl | rfl | rfl | rfl
    · cases h
      exact .inr (.inr (.inr (.inr (.inr (.inr (.inr ⟨rfl, rfl⟩))))))
    · cases h
      exact .inr (.inr (.inr (.inr (.inr (.inr (.inl ⟨rfl, rfl⟩))))))
    · exact absurd (by rw [(qRead_frame h).2]; rfl) hne
    · obtain ⟨hs, ht⟩ := execInhibit_role h hne
      exact .inl ⟨hs, ht, .inr (.inl rfl)⟩
  · rcases execEdge_eq_next h with ⟨ha, hdec⟩ | ⟨ha, rfl⟩
    · obtain ⟨hs, ht, hp, hbad⟩ := decEdge_role ha hdec hne
      exact .inl ⟨hs, ht, .inr (.inr ⟨d, now, rfl, hp, hbad⟩)⟩
    · obtain ⟨hi, hw⟩ : s.inh_cnt = 0#8 ∧ s.wr_cnt = 0#8 := by simpa [useInv_iff, ha] using huse
      obtain ⟨hs, ht, hp⟩ := encEdge_role ha hi hw hne
      exact .inr (.inr (.inr (.inl ⟨hs, ht, hp, d, now, rfl⟩)))
  · cases h
    rcases tickAll_role huse hne with ⟨hs, ht, hi⟩ | ⟨hs, ht, hw⟩ | ⟨hs, ht, hst⟩
    · exact .inr (.inl ⟨hs, ht, hi, c, rfl⟩)
    · obtain ⟨hrx, htx⟩ := tickAll_positions c hw
      exact .inr (.inr (.inl ⟨hs, ht, hw, hrx, htx, c, rfl⟩))
    · exact .inr (.inr (.inr (.inr (.inl ⟨hs, ht, hst, c, rfl⟩))))
  · cases h
    exact .inr (.inr (.inr (.inr (.inr (.inl ⟨requestSend_role b s, b, rfl⟩)))))

end Sys2Proof.Machine
end

-- Proofs: the record of conditions and the requests
section
/-! PROOFS. Which conditions an operation adds to the record, and that no operation touches what the
environment has requested (60_exceptions.md R135 to R140, R153). -/

namespace Sys2Proof.Machine

/-! ### The conditions of an EDGE -/

theorem countersZero_eq_false_iff (s : State) :
    countersZero s = false ↔ s.inh_cnt ≠ 0#8 ∨ s.wr_cnt ≠ 0#8 ∨ s.st_cnt ≠ 0#8 := by
  rw [← Bool.not_eq_true, countersZero_iff]
  tauto

/-- What the Decoder adds to the record: `Desync` by the staleness guard (R137), and at the last position
`FrameError` or `QueueOverflow` (R136, R139). -/
theorem decEdge_raised {d : Bool} {now : Nat} {s t : State} (h : decEdge d now s = .next t) :
    t.raised = s.raised ++
      (if countersZero s = false then [] else
        (if isStale now s then [.desync] else []) ++
        (if (guardedPos now s).val = 10 then
          (if s.rx_bad = true ∨ d = false then [.frameError]
          else if s.queue.isFull then [.queueOverflow] else [])
        else [])) := by
  have hguard : (if isStale now s then s.raised ++ [.desync] else s.raised) =
      s.raised ++ if isStale now s then [.desync] else [] := by
    split <;> simp
  rcases decEdge_cases h with ⟨hc, rfl⟩ | ⟨hc, hp, _, _, _, _, rfl⟩ | ⟨hc, hp, hbad, rfl⟩ |
    ⟨hc, hp, hvalid, hfull, rfl⟩ | ⟨hc, hp, hvalid, hfull, _, -, rfl⟩
  · simp [hc]
  · simp [hc, hp, hguard]
  · simp [hc, hp, hbad, hguard]
  · simp [hc, hp, hvalid, hfull, hguard]
  · simp [hc, hp, hvalid, hfull, hguard]

/-- The Encoder adds `NoAck` where it samples a level of 1, and nothing else (R138). -/
theorem encEdge_raised (d : Bool) (s : State) :
    (encEdge d s).raised = s.raised ++
      if s.st_cnt = 0#8 ∧ s.tx_pos.val = 10 ∧ d = true then [.noAck] else [] := by
  rcases encEdge_cases d s with ⟨hs, he⟩ | ⟨-, hp, _, _, _, _, he⟩ | ⟨hs, hp, he⟩ <;> rw [he]
  · simp [hs]
  · simp [hp]
  · cases d <;> simp [hs, hp]

theorem tickAll_raised (c : Bool) (s : State) : (tickAll c s).raised = s.raised := by
  rw [tickAll_eq]

/-- Settles O52: an EDGE adds what the armed handler adds; the others by their frames. -/
theorem conditionsAreRaisedOnlyWhereTheyOccur : Obligations.ConditionsAreRaisedOnlyWhereTheyOccur := by
  unfold Obligations.ConditionsAreRaisedOnlyWhereTheyOccur
  constructor
  · intro d now s t h
    rcases execEdge_eq_next h with ⟨ha, hdec⟩ | ⟨ha, rfl⟩
    · rw [decEdge_raised hdec]
      simp only [ha, countersZero_eq_false_iff, reduceCtorEq, if_false]
    · rw [encEdge_raised, if_pos ha]
  · rintro i s t (rfl | rfl | rfl | ⟨c, rfl⟩ | ⟨b, rfl⟩) h
    · cases h; rfl
    · rw [(qRead_frame h).2]
    · rw [execInhibit_frame h]
    · cases h; exact tickAll_raised c s
    · cases h; rfl

/-! ### The requests -/

/-- Neither handler touches the requests. -/
theorem execEdge_trace {d : Bool} {now : Nat} {s t : State} (h : execEdge d now s = .next t) :
    t.trace = s.trace := by
  rcases execEdge_eq_next h with ⟨-, hdec⟩ | ⟨-, rfl⟩
  · rw [decEdge_frame hdec]
  · rw [encEdge_frame]

theorem qPut_trace {b : Byte} {s t : State} (h : qPut b s = .next t) : t.trace = s.trace := by
  rcases qPut_eq_next h with ⟨-, rfl⟩ | ⟨-, _, -, rfl⟩ <;> rfl

theorem inhBlock_trace (s : State) : (inhBlock s).trace = s.trace := by
  rw [inhBlock_eq]

theorem wrBlock_trace (s : State) : (wrBlock s).trace = s.trace := by
  rw [wrBlock_eq]

theorem stBlock_trace (c : Bool) (s : State) : (stBlock c s).trace = s.trace := by
  rw [stBlock_eq]

theorem tickAll_trace (c : Bool) (s : State) : (tickAll c s).trace = s.trace := by
  rw [tickAll, stBlock_trace, wrBlock_trace, inhBlock_trace]

/-- Settles O55: no shared operation touches the requests, and the frames are runs of such operations. -/
theorem noOperationChangesTheRequests : Obligations.NoOperationChangesTheRequests := by
  unfold Obligations.NoOperationChangesTheRequests
  intro i s t h
  have heff := exec_effect i s
  generalize exec i s = r at heff h
  have hedges : ∀ d now u v, u.trace = s.trace → execEdge d now u = .next v → v.trace = s.trace :=
    fun _ _ _ _ hu he => (execEdge_trace he).trans hu
  cases heff with
  | refused => cases h
  | idle => cases h; rfl
  | reset => cases h; rfl
  | init => cases h; rfl
  | send => cases h; rfl
  | inhibit => rw [execInhibit_frame h]
  | edge => exact execEdge_trace h
  | tick c => cases h; exact tickAll_trace c s
  | inhBlock => cases h; exact inhBlock_trace s
  | wrBlock => cases h; exact wrBlock_trace s
  | stBlock _ c => cases h; exact stBlock_trace c s
  | read => rw [(qRead_frame h).2]
  | put => exact qPut_trace h
  | clear => cases h; rfl
  | rxframe => exact runEdges_keeps hedges _ s t rfl h
  | txframe => exact execTxframe_keeps hedges (fun c u hu => (tickAll_trace c u).trans hu) rfl h

end Sys2Proof.Machine
end

-- Proofs: hazards
section
/-! PROOFS. A SEND while the settle phase runs, the Transmitting role without an edge, and the edges the core
makes itself (70_reset_and_hazards.md R178 to R181). -/

namespace Sys2Proof.Machine

/-! ### A SEND during the settle phase -/

/-- With the Encoder at position 0 and the start bit on the line, the line carries the frame of the pending
byte (R57, R96). -/
theorem lineLevels_of_start {s : State} (hs : s.st_cnt = 0#8) (hpos : s.tx_pos = 0)
    (hdrv : s.data_drv = .low) :
    lineLevels 10 s = (List.range 11).map fun i => (frameOf s.pend).getLsbD i := by
  have hlevels := lineLevels_clockedOut hs (k := 10) (n := 0) (by omega)
  rwa [clockedOut_zero hpos hdrv, ← List.range_eq_range'] at hlevels

/-- Settles O41: the new write-request phase outlasts the settle phase, and its last tick leaves the Encoder
at the start of the frame. -/
theorem sendDuringSettleIsSentIntact : Obligations.SendDuringSettleIsSentIntact := by
  unfold Obligations.SendDuringSettleIsSentIntact
  intro b s _ _ _ hle cs hlen
  have hloads : Config.settleTicks < Config.writeTicks := by decide
  have houtlasts : s.st_cnt.toNat < cs.length := hlen ▸ Nat.lt_of_le_of_lt hle hloads
  have hphase : tickRun cs (requestSend b s) = afterRequest cs.length (requestSend b s) :=
    tickRun_of_wr_cnt hlen.symm houtlasts
  have hrun : runOps (.send b :: cs.map .tick) s = .next (afterRequest cs.length (requestSend b s)) :=
    hphase ▸ runOps_tick cs (requestSend b s)
  exact ⟨_, hrun, rfl, rfl, rfl, rfl, rfl, rfl, rfl, lineLevels_of_start rfl rfl rfl⟩

/-! ### The Transmitting role -/

/-- What every operation of a run keeps, the run keeps. -/
theorem runOps_keeps {P : State → Prop} {is : List Instr}
    (hop : ∀ i ∈ is, ∀ s t, P s → exec i s = .next t → P t) {s t : State} (hs : P s)
    (h : runOps is s = .next t) : P t := by
  induction is generalizing s with
  | nil => cases h; exact hs
  | cons i is ih =>
    obtain ⟨hi, his⟩ := List.forall_mem_cons.mp hop
    obtain ⟨u, hu, ht⟩ := andThen_eq_next h
    exact ih his (hi s u hs hu) ht

/-- READ writes nothing of the Encoder's, INHIBIT acts in the Receiving role only, and a TICK finds no
counter running (R112, R127, R106). -/
theorem exec_keeps_transmitting {i : Instr} {s t : State} (hrole : role s = .transmitting)
    (hi : i = .read ∨ i = .inhibit ∨ ∃ c, i = .tick c) (h : exec i s = .next t) :
    role t = .transmitting ∧ t.tx_pos = s.tx_pos ∧ t.pend = s.pend := by
  obtain ⟨hinh, hwr, hst, harmed⟩ := (role_eq_transmitting_iff s).mp hrole
  rcases hi with rfl | rfl | ⟨c, rfl⟩
  · rw [(qRead_frame h).2]
    exact ⟨hrole, rfl, rfl⟩
  · rcases execInhibit_eq_next h with ⟨hdec, -⟩ | rfl
    · cases harmed.symm.trans hdec
    · exact ⟨hrole, rfl, rfl⟩
  · cases h
    rw [tickAll_of_countersZero c ((countersZero_iff s).mpr ⟨hinh, hwr, hst⟩)]
    exact ⟨hrole, rfl, rfl⟩

/-- Settles O42: each of the three operations keeps the role, the position and the byte, and so does the
run. -/
theorem transmittingWaitsForTheDevice : Obligations.TransmittingWaitsForTheDevice := by
  unfold Obligations.TransmittingWaitsForTheDevice
  intro is s t hrole his h
  refine runOps_keeps (P := fun u => role u = .transmitting ∧ u.tx_pos = s.tx_pos ∧ u.pend = s.pend)
    (fun i hi u v ⟨hu, hpos, hpend⟩ hv => ?_) ⟨hrole, rfl, rfl⟩ h
  obtain ⟨hv, hpos', hpend'⟩ := exec_keeps_transmitting hu (his i hi) hv
  exact ⟨hv, hpos'.trans hpos, hpend'.trans hpend⟩

/-! ### The edges the core makes itself -/

/-- A hold tick leaves its counter running. -/
theorem counter_sub_one_ne_zero {x : Config.Counter} (h : 1#8 < x) : x - 1#8 ≠ 0#8 :=
  sub_ne_zero.mpr (counter_ne_of_one_lt h).2

/-- An acknowledgment happens with the Encoder armed and starts the settle phase (R95). -/
theorem exec_encAck_eq_next {d : Bool} {s t : State} (h : exec (.encAck d) s = .next t) :
    t.armed = .enc ∧ t.st_cnt = Config.settleTicks := by
  obtain ⟨hsel, ht⟩ := selected_eq_next h
  obtain ⟨hopen, -⟩ := (Bool.and_eq_true _ _).mp hsel
  obtain ⟨harmed, -⟩ := of_decide_eq_true hopen
  cases ht
  rw [sampleAck_eq]
  exact ⟨harmed, rfl⟩

/-- Settles O54: each of the four leaves a counter that the guard of the armed handler tests (R75, R91). -/
theorem selfCausedEdgesAreHarmless : Obligations.SelfCausedEdgesAreHarmless := by
  unfold Obligations.SelfCausedEdgesAreHarmless
  intro d d' c now s t
  refine ⟨fun ha hw h => ?_, fun ha hi h => ?_, fun h => ?_, fun ha hs h => ?_⟩
  · obtain ⟨ha', hw'⟩ : t.armed = .dec ∧ t.wr_cnt ≠ 0#8 := by
      cases (writeRequestHoldsTheClock s hw).symm.trans h
      exact ⟨ha, counter_sub_one_ne_zero hw⟩
    exact (decoderIgnoresEdgesDuringAPhase d now t ha' (.inr (.inl hw'))).1
  · obtain ⟨ha', hi'⟩ : t.armed = .dec ∧ t.inh_cnt ≠ 0#8 := by
      obtain ⟨hhold, -⟩ := inhibitPhaseHoldsThenReleasesTheClock s
      cases (hhold hi).symm.trans h
      exact ⟨ha, counter_sub_one_ne_zero hi⟩
    exact (decoderIgnoresEdgesDuringAPhase d now t ha' (.inl hi')).1
  · obtain ⟨ha', hs'⟩ := exec_encAck_eq_next h
    exact (encoderIgnoresEdgesWhileSettling d now t ha' (hs' ▸ settleTicks_ne_zero)).1
  · obtain ⟨ha', hs'⟩ : t.armed = .enc ∧ t.st_cnt ≠ 0#8 := by
      obtain ⟨hhigh, hlow⟩ := settleHoldsTheClockIfHigh s hs
      cases c with
      | false => cases hlow.symm.trans h; exact ⟨ha, counter_sub_one_ne_zero hs⟩
      | true => cases hhigh.symm.trans h; exact ⟨ha, counter_sub_one_ne_zero hs⟩
    exact (encoderIgnoresEdgesWhileSettling d now t ha' hs').1

end Sys2Proof.Machine
end
